-- ==== Sys2Proof/Word.lean ====
section
/-! DEFINITION. The word types of the Ujicor 6410: the byte of the port and of the parcels, and the two-byte
number of a payload, of the tick counter and of the frame counter (00_scope.md, section 0.6). -/

namespace Sys2Proof

/-- One byte: a port access, a parcel byte, an 8-bit counter. -/
abbrev Byte := BitVec 8

/-- A 16-bit number: the tick counter, the frame counter, a two-byte payload field. -/
abbrev Word := BitVec 16

/-- One of the eight port addresses, as the three address lines carry it (R3). -/
abbrev PortAddress := BitVec 3

/-- One bit for each of the 64 keys, key k in bit k (R145). -/
abbrev KeySet := BitVec 64

end Sys2Proof
end

