-- ==== Sys2Proof/Config.lean ====
section
/-! DEFINITION. What the part fixes for good: the identity and the capacities of R2 and R40, and the fixed
times. The spec leaves no value open to the implementation, so there is no free value here. -/

namespace Sys2Proof.Config

/-- R2: the byte that port address 7 always reads. -/
def portIdentity : Byte := 0x4B
/-- R2, R40: the part code that IDENTIFY returns. -/
def partCode : Word := 6410
/-- R40: the silicon revision of the parts the manual describes. -/
def siliconRevision : Byte := 1
/-- R45: cells of the canvas. -/
def canvasCells : Nat := 4096
/-- R45: cells in one canvas row. -/
def cellsPerRow : Nat := 32
/-- R45: rows of the canvas. -/
def canvasRows : Nat := 128
/-- R2: segment outputs SEG0 to SEG159. -/
def segmentOutputs : Nat := 160
/-- R97: bytes of the staging memory. -/
def stagingBytes : Nat := 1024
/-- R116: places of the pending chain queue. -/
def chainPlaces : Nat := 4
/-- R120: places of the recent-outcome list. -/
def outcomePlaces : Nat := 4
/-- R28: request slots. -/
def requestSlots : Nat := 4
/-- R20: places of the upstream ring. -/
def ringBytes : Nat := 192
/-- R10: the smallest legal Length byte. -/
def minLength : Nat := 3
/-- R10: the largest legal Length byte. -/
def maxLength : Nat := 63
/-- R138: keys that may be Down at once. -/
def keysDownMax : Nat := 8
/-- R148: places of the key event queue. -/
def eventPlaces : Nat := 24
/-- R13, R14: ticks loaded into the gap timer. -/
def gapTicks : Nat := 20

end Sys2Proof.Config
end

