-- ==== Sys2Proof/Syntax.lean ====
section
/-! DEFINITION. The commands of the 6410: one constructor for each row of spec/opcode_table.json, in the
table's order. A command is one atomic step of R1 (or, for the rows that name what may come about inside a
step, that step in the case the row names). A port write carries the byte on the data lines and, where the row
spans two addresses, the address; a scan pass carries what the key lines show beyond
what R136 states; a request carries nothing,
since its tag and payload stand in the request slot that the engine executes (R30). -/

namespace Sys2Proof

/-- The commands, one for each row of the table. -/
inductive Instr where
  /-- LINK_DATA_WRITE (R6): a host write to port address 0. -/
  | linkDataWrite (value : Byte)
  /-- LINK_DATA_READ (R9): a host read of port address 0. -/
  | linkDataRead
  /-- LINK_STATUS_READ (R4): a host read of port address 1. -/
  | linkStatusRead
  /-- RESYNC (R23): a host write to port address 1 with bit 0 at 1 and bit 1 at 0. -/
  | resync (value : Byte)
  /-- FULL_RESET (R25): a host write to port address 1 with bit 1 at 1. -/
  | fullReset (value : Byte)
  /-- NOTICE_ACKNOWLEDGE (R158): a host write to port address 2 or 3. -/
  | noticeAcknowledge (address : PortAddress) (value : Byte)
  /-- NOTICE_MASK (R160): a host write to port address 4 or 5. -/
  | noticeMask (address : PortAddress) (value : Byte)
  /-- IGNORED_PORT_WRITE (R3): a host write to port address 6 or 7. -/
  | ignoredPortWrite (address : PortAddress) (value : Byte)
  /-- BYTE_TAKEN (R7): the Parcel Assembler takes the held byte. -/
  | byteTaken
  /-- GAP_TIMEOUT (R17): the tick at which the gap timer reaches 0 in Collecting. -/
  | gapTimeout
  /-- HUNTING_END (R18): the tick at which the gap timer reaches 0 in Hunting. -/
  | huntingEnd
  /-- POSTING (R33): the held parcel is posted whole into the upstream ring. -/
  | posting
  /-- SLEEP_ENTRY (R177): the entry conditions of Sleep hold and Sleep is entered. -/
  | sleepEntry
  /-- UNKNOWN_KIND_REQUEST (R39): the execution of a Good request whose Kind is not in the catalogue. -/
  | unknownKindRequest
  /-- IDENTIFY (R40), Kind 0x01. -/
  | identify
  /-- ECHO (R41), Kind 0x02. -/
  | echo
  /-- GET_STATUS (R42), Kind 0x03. -/
  | getStatus
  /-- CLEAR_COUNTERS (R44), Kind 0x04. -/
  | clearCounters
  /-- RESTART (R182), Kind 0x05. -/
  | restart
  /-- CONFIGURE_PANEL (R80), Kind 0x10. -/
  | configurePanel
  /-- SET_DISPLAY_MODE (R83), Kind 0x11. -/
  | setDisplayMode
  /-- SET_CONTRAST (R81), Kind 0x12. -/
  | setContrast
  /-- SET_BLINK (R86), Kind 0x13. -/
  | setBlink
  /-- WRITE_CANVAS (R50), Kind 0x18. -/
  | writeCanvas
  /-- READ_CANVAS (R51), Kind 0x19. -/
  | readCanvas
  /-- WRITE_ATTRIBUTES (R52), Kind 0x1A. -/
  | writeAttributes
  /-- READ_ATTRIBUTES (R53), Kind 0x1B. -/
  | readAttributes
  /-- SET_CURSOR (R56), Kind 0x1C. -/
  | setCursor
  /-- WRITE_AT_CURSOR (R57), Kind 0x1D. -/
  | writeAtCursor
  /-- CLEAR_CANVAS (R54), Kind 0x1E. -/
  | clearCanvas
  /-- SET_VIEW (R65), Kind 0x20. -/
  | setView
  /-- GET_VIEW (R66), Kind 0x21. -/
  | getView
  /-- SET_BACKDROP (R67), Kind 0x22. -/
  | setBackdrop
  /-- SELECT_VIEWS (R68), Kind 0x23. -/
  | selectViews
  /-- STAGE (R98), Kind 0x28. -/
  | stage
  /-- LOAD_DESCRIPTOR (R102), Kind 0x29. -/
  | loadDescriptor
  /-- FREE_DESCRIPTOR (R103), Kind 0x2A. -/
  | freeDescriptor
  /-- READ_DESCRIPTOR (R104), Kind 0x2E. -/
  | readDescriptor
  /-- SUBMIT_CHAIN (R112), Kind 0x2B. -/
  | submitChain
  /-- CANCEL_CHAIN (R121), Kind 0x2C. -/
  | cancelChain
  /-- CHAIN_STATUS (R122), Kind 0x2D. -/
  | chainStatus
  /-- CONFIGURE_SCAN (R129), Kind 0x30. -/
  | configureScan
  /-- SET_KEY (R127), Kind 0x31. -/
  | setKey
  /-- TAKE_KEYS (R153), Kind 0x32. -/
  | takeKeys
  /-- FLUSH_KEYS (R154), Kind 0x33. -/
  | flushKeys
  /-- GET_KEY_STATES (R145), Kind 0x34. -/
  | getKeyStates
  /-- READ_TIME (R165), Kind 0x38. -/
  | readTime
  /-- SET_ALARM (R166), Kind 0x39. -/
  | setAlarm
  /-- SET_LINK_WATCH (R168), Kind 0x3A. -/
  | setLinkWatch
  /-- ENTER_DOZE (R175), Kind 0x3B. -/
  | enterDoze
  /-- ENTER_SLEEP (R177), Kind 0x3C. -/
  | enterSleep
  /-- WAKE (R176), Kind 0x3D. -/
  | wake
  /-- FRAME_BOUNDARY (R89): `waited` says that the boundary fell due while an execution step was in
  progress and waited for it (R90). -/
  | frameBoundary (waited : Bool)
  /-- RESUMING_BOUNDARY (R95): the boundary that falls due at a return to Run. -/
  | resumingBoundary
  /-- ROW_SCAN_OUT (R93): the next row of the frame is driven. -/
  | rowScanOut
  /-- TICK (R164): one 1 ms tick. -/
  | tick
  /-- SCAN_PASS (R133): a scan pass. Of the matrix keys round which only a path of more than three closed keys leads, of which R136 states
  nothing, `longGhosts` names those that the lines show closed (log entry 16). -/
  | scanPass (longGhosts : KeySet)
  /-- REPEAT (R141): a scan pass in which the repeat timer runs out. -/
  | repeatEvent (longGhosts : KeySet)
  /-- ALARM_EXPIRY (R167): the tick at which the alarm count reaches 0. -/
  | alarmExpiry
  /-- LINK_WATCH_EXPIRY (R169): the tick at which the watch count reaches 0. -/
  | linkWatchExpiry
  /-- WAKE_STEP (R179): the wake step of a wake event. -/
  | wakeStep
  /-- END_OF_STARTING (R173): 4 ms after Starting began, the part enters Run. -/
  | endOfStarting
  /-- POWER_ON_RESET (R174): the supply rises through the threshold. -/
  | powerOnReset
  /-- RST_PIN_RESET (R174): the RST input is driven low (`low`) or goes high again (not `low`). -/
  | rstPinReset (low : Bool)
  /-- WATCHED_LINE_CHANGE (R142): one key contact on the panel closes or opens. -/
  | watchedLineChange (key : Fin 64) (closed : Bool)
  deriving DecidableEq, Repr

end Sys2Proof
end

