-- ==== Sys2Proof/Decode.lean ====
section
/-! DEFINITION. The table of this block gives no row any bits (spec/opcode_table.json: every row's "fields" is empty and no row
has "fixed"), so no word spells a command. The codes that the spec does give, the request kinds of section 2.4, are
read by the engine from a stored parcel (Machine/Ops.lean), not from a command word. -/

namespace Sys2Proof

/-- The command that a word of `nbits` bits spells by the table's bits: none, for no row gives bits. -/
def decodeTableWord (_nbits _w : Nat) : Option Instr := none

end Sys2Proof
end

