-- ==== Sys2Proof/Machine/Blocks.lean ====
section
/-! DEFINITION. The blocks of the 6410 (00_scope.md, section 0.4) as plain data: one structure for each block, one
inductive type for each set of named modes. Sys2Proof/Machine/State.lean joins them into the State. -/

namespace Sys2Proof.Machine

/-- An addressed RAM of the part (pixel plane, attribute plane, staging memory): address and byte pairs, addresses
strictly rising, no entry equal to 0. An address that is not listed reads as 0, which is what the clearing in
Starting leaves (R47, R97). -/
abbrev Memory := List Host.Cell

/-! ## Host port and Parcel Assembler (01) -/

/-- The Parcel Assembler (section 1.5). The pre-mark exists only in Await Length; the bytes still to come, the
running sum and the damage flag only in Collecting; the gap timer runs only in Collecting and Hunting. -/
inductive Assembler where
  | awaitLength (preMark : Bool)
  | collecting (toCome : Nat) (sum : Byte) (damaged : Bool) (gap : Nat)
  | hunting (gap : Nat)
  deriving DecidableEq, Repr

/-- The Host Port: the holding register, the record that an overrun met the held byte (R8, R17), the
upstream ring (oldest byte first, R20), the UNDERRUN flag (R4) and the assembler. -/
structure Link where
  holding : Option Byte
  overrunMet : Bool
  ring : List Byte
  underrun : Bool
  assembler : Assembler
  deriving DecidableEq, Repr

/-! ## Request slots and engine (02) -/

/-- The reasons of a REJECT (R12). -/
inductive RejectReason where
  | sum | overrun | direction
  deriving DecidableEq, Repr

/-- The states of an occupied request slot (section 2.1); Waiting carries its mark. -/
inductive SlotStage where
  | filling
  | waitingGood
  | waitingRejected (reason : RejectReason)
  | executing
  | replying
  deriving DecidableEq, Repr

/-- One occupied request slot: its state and the bytes stored so far, in order of arrival (R15): Kind, Tag, payload, Check. -/
structure Slot where
  stage : SlotStage
  stored : List Byte
  deriving DecidableEq, Repr

/-- What the posting of a REPLY does beyond posting it (R33). -/
inductive PostEffect where
  | nothing | warmReset | enterDoze | enterSleep
  deriving DecidableEq, Repr

/-- A finished REPLY or REJECT: every byte of the parcel, Length first, and what its posting does. -/
structure Answer where
  bytes : List Byte
  effect : PostEffect
  deriving DecidableEq, Repr

/-- The states of the Request Engine (section 2.2). -/
inductive EngineState where
  | idle
  | executing
  | replying (answer : Answer)
  | suspended
  deriving DecidableEq, Repr

/-- The Request Queue and Engine: the occupied slots in allocation order, oldest first (R28), and the engine. -/
structure Requests where
  slots : List Slot
  engine : EngineState
  deriving DecidableEq, Repr

/-- The five event counters (R43). -/
structure Counters where
  overrun : Byte
  framing : Byte
  reject : Byte
  lateFrame : Byte
  lostKey : Byte
  deriving DecidableEq, Repr

/-- The outcome codes (section 2.3). -/
inductive OutcomeCode where
  | done | unknownKind | badSize | outOfRange | busy | locked | wrongState | noRoom | invalidChain | unknownHandle
  deriving DecidableEq, Repr

/-! ## Canvas (03) -/

/-- The three attribute flags of a cell, in the places of the attribute byte (R46): bit 0 Blink, 1 Inverse, 2 Dim. -/
abbrev AttributeSet := BitVec 3

/-- Keep or Apply (R49). -/
inductive AttributeMode where
  | keep | apply
  deriving DecidableEq, Repr

/-- The step of the canvas cursor (R55). -/
inductive CursorStep where
  | forward | backward
  deriving DecidableEq, Repr

/-- The Canvas Store and the cursor: the pixel byte of each cell, the attribute set of each cell (in bits 0 to 2 of its
byte), the cursor's cell index and its step. -/
structure Canvas where
  pixels : Memory
  attributes : Memory
  cursor : BitVec 12
  step : CursorStep
  deriving DecidableEq, Repr

/-! ## Views (04) -/

/-- The two view tables, and so the view source (R63). -/
inductive ViewTable where
  | primary | fallback
  deriving DecidableEq, Repr

/-- Vertical Direction (R60). -/
inductive VerticalDirection where
  | up | down
  deriving DecidableEq, Repr

/-- Horizontal Direction (R60). -/
inductive HorizontalDirection where
  | left | right
  deriving DecidableEq, Repr

/-- A view record (R60, R61). -/
structure ViewRecord where
  enabled : Bool
  inverse : Bool
  left : Byte
  top : Byte
  width : Byte
  height : Byte
  originX : Byte
  originY : Byte
  bandLeft : Byte
  bandTop : Byte
  bandRight : Byte
  bandBottom : Byte
  verticalRate : Byte
  verticalDirection : VerticalDirection
  horizontalRate : Byte
  horizontalDirection : HorizontalDirection
  deriving DecidableEq, Repr

/-- One view of a table: its record and its two scroll counters (R63). -/
structure View where
  record : ViewRecord
  verticalCount : Byte
  horizontalCount : Byte
  deriving DecidableEq, Repr

/-- The View Tables block (R63). -/
structure Views where
  primary : Vector View 4
  fallback : Vector View 4
  backdrop : Bool
  source : ViewTable
  deriving DecidableEq, Repr

/-! ## Panel and frames (05) -/

/-- The display modes (R82): Off, Blank, Show, Test. -/
inductive DisplayMode where
  | off | blank | showing | test
  deriving DecidableEq, Repr

/-- The blink phase (R85). -/
inductive BlinkPhase where
  | shown | hidden
  deriving DecidableEq, Repr

/-- The frame snapshot (R92). -/
structure Snapshot where
  primary : Vector ViewRecord 4
  fallback : Vector ViewRecord 4
  source : ViewTable
  backdrop : Bool
  mode : DisplayMode
  phase : BlinkPhase
  deriving DecidableEq, Repr

/-- The level of one segment output while a row is driven (R84). -/
inductive SegmentLevel where
  | off | on | unselected
  deriving DecidableEq, Repr

/-- What the segment and common outputs carry (R84, R93): all grounded; a frame is open and no row of it is selected
yet; or one common is selected, at a contrast, with a level on each of the 160 segment outputs. -/
inductive PanelDrive where
  | grounded
  | unselected
  | row (common : Nat) (contrast : Byte) (segments : List SegmentLevel)
  deriving DecidableEq, Repr

/-- The Panel Driver (R79, R82): configuration, contrast, display mode, frame snapshot and the outputs. -/
structure Panel where
  columns : Byte
  rows : Byte
  frameRate : Byte
  contrast : Byte
  mode : DisplayMode
  snapshot : Snapshot
  drive : PanelDrive
  deriving DecidableEq, Repr

/-- The Frame Sequencer (R85, R87): frame counter, blink state, the row that falls due next in the open frame (none: no
frame is open), whether a resuming boundary has fallen due and is not yet taken (R95), and the drive polarity (R84). -/
structure Frames where
  counter : Word
  blinkPeriod : Byte
  blinkCount : Byte
  blinkPhase : BlinkPhase
  row : Option Nat
  resuming : Bool
  polarity : Bool
  deriving DecidableEq, Repr

/-! ## Staging memory, descriptors and chains (06) -/

/-- A cell rectangle (section 6.3). -/
structure Rectangle where
  column : Byte
  row : Byte
  width : Byte
  height : Byte
  deriving DecidableEq, Repr

/-- The six descriptor actions with their parameters (R106 to R111). -/
inductive Action where
  | copy (offset : Word) (rect : Rectangle) (mode : AttributeMode) (attributes : AttributeSet)
  | fill (rect : Rectangle) (pattern : Byte) (mode : AttributeMode) (attributes : AttributeSet)
  | attributes (rect : Rectangle) (setMask : AttributeSet) (clearMask : AttributeSet)
  | origin (table : ViewTable) (view : Fin 4) (x : Byte) (y : Byte)
  | visibility (table : ViewTable) (view : Fin 4) (enabled : Bool)
  | mark (value : Byte)
  deriving DecidableEq, Repr

/-- A descriptor record (R100): the action, Next (none: End) and the Release flag. -/
structure Descriptor where
  action : Action
  next : Option (Fin 32)
  release : Bool
  deriving DecidableEq, Repr

/-- One slot of the descriptor pool (R100); a Held slot records the handle of its chain. -/
inductive PoolSlot where
  | free
  | loaded (record : Descriptor)
  | held (handle : Byte) (record : Descriptor)
  deriving DecidableEq, Repr

/-- A pending chain record (R114). -/
structure PendingChain where
  handle : Byte
  head : Fin 32
  length : Nat
  due : Word
  urgent : Bool
  deriving DecidableEq, Repr

/-- The outcomes of a chain (R120): Done, Partial, Cancelled. -/
inductive ChainResult where
  | completed | partly | cancelled
  deriving DecidableEq, Repr

/-- A record of the recent-outcome list (R120). -/
structure ChainOutcome where
  handle : Byte
  result : ChainResult
  skipped : Nat
  deriving DecidableEq, Repr

/-- The Descriptor Pool and the Chain Queue and Applier (R100, R111, R115, R116, R120). -/
structure Chains where
  pool : Vector PoolSlot 32
  queue : List PendingChain
  lastHandle : Byte
  outcomes : List ChainOutcome
  lastMark : Byte
  deriving DecidableEq, Repr

/-! ## Keys (07, 08) -/

/-- The scan configuration (R128). -/
structure ScanConfig where
  drives : Nat
  senses : Nat
  period : Nat
  settle : Nat
  repeatDelay : Nat
  repeatInterval : Nat
  deriving DecidableEq, Repr

/-- A record of the key table (R126). -/
structure KeyRecord where
  enabled : Bool
  repeats : Bool
  wakes : Bool
  deriving DecidableEq, Repr

/-- The debounce states of a key (section 7.5). -/
inductive KeyState where
  | idle
  | settlingDown (count : Nat)
  | down
  | settlingUp (count : Nat)
  | suppressed (count : Nat)
  deriving DecidableEq, Repr

/-- The Key Scanner: configuration, key table, key states, raw closures (R132), pass timer and the passes that have fallen due
and are not yet taken (R131), repeat owner and repeat timer (none: stopped; R140, R141), the two episodes (R137, R138) and the
armed lines of wake scanning (R142: bits 0 to 5 the sense lines, bits 6 to 9 the direct inputs). -/
structure Scanner where
  config : ScanConfig
  table : Vector KeyRecord 64
  states : Vector KeyState 64
  raw : KeySet
  passTimer : Nat
  passesDue : Nat
  owner : Option (Fin 64)
  repeatTimer : Option Nat
  ghost : Bool
  rollover : Bool
  armed : BitVec 10
  deriving DecidableEq, Repr

/-- The kinds of a key event (R147). -/
inductive EventKind where
  | press | release | repeated | forcedRelease | ghost | rollover | lost
  deriving DecidableEq, Repr

/-- An event record (R147). -/
structure KeyEvent where
  kind : EventKind
  key : Byte
  time : Word
  deriving DecidableEq, Repr

/-- The Key Event Queue (R148): its records, oldest first, and the dropped count (R151). -/
structure KeyQueue where
  events : List KeyEvent
  dropped : Byte
  deriving DecidableEq, Repr

/-! ## Notices, timebase, power (09, 10, 11) -/

/-- The eleven notices (section 9.2). -/
inductive Notice where
  | started | linkLost | linkFault | wake | keys | reply | chainDone | chainMark | alarm | frame | keyLoss
  deriving DecidableEq, Repr

/-- The Notice Unit: the sticky notices, notice n in bit n (the bits of the two level notices hold nothing, R157), and the mask. -/
structure Notices where
  sticky : BitVec 11
  mask : BitVec 11
  deriving DecidableEq, Repr

/-- The alarm modes (section 10.2). -/
inductive AlarmMode where
  | off | oneShot | periodic
  deriving DecidableEq, Repr

/-- The fallback actions (section 10.3). -/
inductive FallbackAction where
  | none | fallback | fallbackAndShow
  deriving DecidableEq, Repr

/-- The link state (section 10.3). -/
inductive LinkState where
  | live | lost
  deriving DecidableEq, Repr

/-- The Timebase: tick counter, alarm, link watch and link state. -/
structure Timebase where
  ticks : Word
  alarmMode : AlarmMode
  alarmPeriod : Word
  alarmWake : Bool
  alarmCount : Word
  watchPeriod : Byte
  watchAction : FallbackAction
  watchCount : Word
  link : LinkState
  deriving DecidableEq, Repr

/-- The five power states (R172). -/
inductive PowerState where
  | starting | run | sleepPending | doze | sleep
  deriving DecidableEq, Repr

/-- The reset causes (R183). -/
inductive ResetCause where
  | powerOn | rstPin | fullReset | restart
  deriving DecidableEq, Repr

/-- The Power Manager: power state, reset cause, and whether a wake step has fallen due and is not yet taken (R179). -/
structure Power where
  state : PowerState
  cause : ResetCause
  wakeDue : Bool
  deriving DecidableEq, Repr

/-- The input pins and the data lines: RST held low (R174), the keys whose contact is closed (R132, R142), and the byte that the
last read of Link Data or Link Status drove on the data lines. -/
structure Pins where
  rstLow : Bool
  contacts : KeySet
  data : Byte
  deriving DecidableEq, Repr

end Sys2Proof.Machine
end

