-- ==== Sys2Proof/Machine/Defaults.lean ====
section
/-! DEFINITION. The value of each block after a reset of the power-on kind (the reset table of R181 and the defaults listed below it). -/

namespace Sys2Proof.Machine

/-- R26: the port and the assembler after a reset of the power-on kind. -/
def defaultLink : Link :=
  { holding := none, overrunMet := false, ring := [], underrun := false, assembler := .awaitLength false }

/-- R35: every slot Free and the engine Idle. -/
def defaultRequests : Requests := { slots := [], engine := .idle }

/-- R43: the five counters at 0. -/
def defaultCounters : Counters := { overrun := 0, framing := 0, reject := 0, lateFrame := 0, lostKey := 0 }

/-- R47, R55: every pixel off, every attribute clear, the cursor at cell 0 with step +1. -/
def defaultCanvas : Canvas := { pixels := [], attributes := [], cursor := 0, step := .forward }

/-- R64: the default view record. -/
def defaultViewRecord : ViewRecord :=
  { enabled := false, inverse := false, left := 0, top := 0, width := 8, height := 8, originX := 0, originY := 0,
    bandLeft := 0, bandTop := 0, bandRight := 255, bandBottom := 127, verticalRate := 0, verticalDirection := .up,
    horizontalRate := 0, horizontalDirection := .left }

/-- R64: the default record with both scroll counters 0. -/
def defaultView : View := { record := defaultViewRecord, verticalCount := 0, horizontalCount := 0 }

/-- R64: both tables at their defaults, backdrop off, view source primary. -/
def defaultViews : Views :=
  { primary := Vector.replicate 4 defaultView, fallback := Vector.replicate 4 defaultView, backdrop := false, source := .primary }

/-- R92: until the first boundary the snapshot holds the defaults of every item, with snapshot mode Off. -/
def defaultSnapshot : Snapshot :=
  { primary := Vector.replicate 4 defaultViewRecord, fallback := Vector.replicate 4 defaultViewRecord, source := .primary,
    backdrop := false, mode := .off, phase := .shown }

/-- R96: 128 columns, 64 rows, 70 frames per second, contrast 16, display mode Off; R94: every output grounded. -/
def defaultPanel : Panel :=
  { columns := 128, rows := 64, frameRate := 70, contrast := 16, mode := .off, snapshot := defaultSnapshot, drive := .grounded }

/-- R96: frame counter 0, blink period 32, counter 0, phase Shown; the sequencer is stopped and no frame is open.
DESIGN CHOICE (log entry 3): the polarity of R84 starts at `false`. -/
def defaultFrames : Frames :=
  { counter := 0, blinkPeriod := 32, blinkCount := 0, blinkPhase := .shown, row := none, resuming := false, polarity := false }

/-- R124: every slot Free, no pending chain, no outcome, Last Mark 0, last handle issued 0. -/
def defaultChains : Chains :=
  { pool := Vector.replicate 32 .free, queue := [], lastHandle := 0, outcomes := [], lastMark := 0 }

/-- R128: the default scan configuration. -/
def defaultScanConfig : ScanConfig :=
  { drives := 10, senses := 6, period := 8, settle := 3, repeatDelay := 50, repeatInterval := 10 }

/-- R126: every key Enabled, Repeats set for keys 0..59 and clear for 60..63, Wakes clear. -/
def defaultKeyTable : Vector KeyRecord 64 :=
  Vector.ofFn fun k => { enabled := true, repeats := decide (k.val < 60), wakes := false }

/-- R146: the scanner after a reset of the power-on kind. The pass timer is stopped; DESIGN CHOICE (log entry 4): a stopped
timer holds 0, and no line is armed. -/
def defaultScanner : Scanner :=
  { config := defaultScanConfig, table := defaultKeyTable, states := Vector.replicate 64 .idle, raw := 0, passTimer := 0,
    passesDue := 0, owner := none, repeatTimer := none, ghost := false, rollover := false, armed := 0 }

/-- R155: no event record, dropped count 0. -/
def defaultKeyQueue : KeyQueue := { events := [], dropped := 0 }

/-- R163: every sticky notice clear, STARTED (bit 0) unmasked and all others masked. -/
def defaultNotices : Notices := { sticky := 0, mask := 1 }

/-- R171: tick counter 0, alarm Off with count 0, period 0 and Wake clear, watch period 0, action None, count 0, link Live. -/
def defaultTimebase : Timebase :=
  { ticks := 0, alarmMode := .off, alarmPeriod := 0, alarmWake := false, alarmCount := 0, watchPeriod := 0,
    watchAction := .none, watchCount := 0, link := .live }

/-- R173, R183: Starting, with the cause of the reset; no wake step is due. -/
def defaultPower (cause : ResetCause) : Power := { state := .starting, cause := cause, wakeDue := false }

/-- DESIGN CHOICE (log entry 5): at power-on RST is high, no key is closed and the data lines carry 0. -/
def defaultPins : Pins := { rstLow := false, contacts := 0, data := 0 }

end Sys2Proof.Machine
end

