-- ==== Sys2Proof/Machine/State.lean ====
section
/-! DEFINITION. The state of the 6410, the reasons a step can stop, and the state after a power-on reset. -/

namespace Sys2Proof.Machine

/-- The whole part: one field for each block of section 0.4 that holds state, the pins, and (the model's own field) the queue of commands
that wait, first in, first out. -/
structure State where
  link : Link
  requests : Requests
  counters : Counters
  canvas : Canvas
  views : Views
  panel : Panel
  frames : Frames
  staging : Memory
  chains : Chains
  scanner : Scanner
  keys : KeyQueue
  notices : Notices
  time : Timebase
  power : Power
  pins : Pins
  pending : List Instr
  deriving DecidableEq, Repr

/-- The reasons a step stops with a fault: there is none. The spec gives every command of its table an effect in every state (a step
that its rule says does not fall due changes nothing), so no command faults. Safe: a fault would only take behaviour away. -/
inductive Fault where
  deriving DecidableEq, Repr

/-- The reasons a step is refused. -/
inductive Refusal where
  /-- Raised by an arm of exec whose command has no meaning yet; safe. Every command has its meaning, so no arm raises it. -/
  | notModelled (mnemonic : String)
  deriving DecidableEq, Repr

/-- The part right after a power-on reset (R173, R174, R181): Starting, reset cause 1, every block at its default, no command waiting. -/
def State.reset : State :=
  { link := defaultLink, requests := defaultRequests, counters := defaultCounters, canvas := defaultCanvas,
    views := defaultViews, panel := defaultPanel, frames := defaultFrames, staging := [], chains := defaultChains,
    scanner := defaultScanner, keys := defaultKeyQueue, notices := defaultNotices, time := defaultTimebase,
    power := defaultPower .powerOn, pins := defaultPins, pending := [] }

end Sys2Proof.Machine
end

