-- ==== Sys2Proof/Machine/Memory.lean ====
section
/-! DEFINITION. The addressed RAMs: reading and writing one byte, a run of bytes, and filling. A write keeps the canonical form. -/

namespace Sys2Proof.Machine

/-- What an address that is not listed reads as: 0, the value of the clearing in Starting (R47, R97). -/
def unlistedByte : Byte := 0

/-- The byte at an address. -/
def memRead : Memory → Nat → Byte
  | [], _ => unlistedByte
  | (a, b) :: rest, k => if a = k then b else memRead rest k

/-- Puts a byte before the entries that follow it, or nothing where it is the value of an unlisted address. -/
def memCons (k : Nat) (v : Byte) (rest : Memory) : Memory := if v = unlistedByte then rest else (k, v) :: rest

/-- Writes one byte, keeping the addresses rising and listing no unlisted value. -/
def memWrite : Memory → Nat → Byte → Memory
  | [], k, v => memCons k v []
  | (a, b) :: rest, k, v =>
    if k < a then memCons k v ((a, b) :: rest)
    else if k = a then memCons k v rest
    else (a, b) :: memWrite rest k v

/-- Writes the bytes to the addresses `start`, `start + 1`, ... in order. -/
def memWriteRun : Memory → Nat → List Byte → Memory
  | m, _, [] => m
  | m, start, b :: bytes => memWriteRun (memWrite m start b) (start + 1) bytes

/-- The bytes at `start`, ..., `start + n - 1`, in order. -/
def memReadRun (m : Memory) (start n : Nat) : List Byte := (List.range n).map fun i => memRead m (start + i)

/-- A RAM of `size` bytes that all hold `v`. -/
def memFill (size : Nat) (v : Byte) : Memory := if v = unlistedByte then [] else (List.range size).map fun a => (a, v)

/-- The canonical form: addresses strictly rising, no entry equal to what an unlisted address reads as. -/
def Memory.wf : Memory → Bool
  | [] => true
  | [(_, b)] => b != unlistedByte
  | (a, b) :: (c, d) :: rest => decide (a < c) && b != unlistedByte && Memory.wf ((c, d) :: rest)

/-- Every listed address lies below `size`. -/
def Memory.within (size : Nat) (m : Memory) : Bool := m.all fun cell => decide (cell.1 < size)

end Sys2Proof.Machine
end

