-- ==== Sys2Proof/Machine/Operands.lean ====
section
/-! DEFINITION. The operand forms: how the fields of a payload are read (R38), how the records are laid out, and which values are in range. -/

namespace Sys2Proof.Machine

/-! ## Bytes, two-byte fields, numbers with a range -/

/-- Payload byte `i` (0 past the end; every request checks its size first, R36). -/
def byteAt (p : List Byte) (i : Nat) : Byte := p.getD i 0

/-- A two-byte field at `i`, low byte first (section 0.6). -/
def wordAt (p : List Byte) (i : Nat) : Word := byteAt p (i + 1) ++ byteAt p i

/-- The low byte of a 16-bit value. -/
def lowByte (w : Word) : Byte := w.extractLsb' 0 8

/-- The high byte of a 16-bit value. -/
def highByte (w : Word) : Byte := w.extractLsb' 8 8

/-- A 16-bit value as it stands in a payload, low byte first. -/
def wordBytes (w : Word) : List Byte := [lowByte w, highByte w]

/-- R38: a number field lies in `lo..hi`. -/
def inRange (lo hi : Nat) (b : Byte) : Bool := decide (lo ≤ b.toNat) && decide (b.toNat ≤ hi)

/-- R38: a field with the values 0 and 1 only. -/
def isBit (b : Byte) : Bool := b == 0 || b == 1

/-- A flag in a byte that the companion returns. -/
def flagBit (b : Bool) (i : Nat) : Byte := if b then BitVec.twoPow 8 i else 0

/-! ## Attributes and attribute modes -/

/-- R46: the attribute set of an attribute byte; bits 3 to 7 are ignored. -/
def attributesOf (b : Byte) : AttributeSet := b.extractLsb' 0 3

/-- R46: an attribute set as a byte; bits 3 to 7 are 0. -/
def attributesByte (a : AttributeSet) : Byte := a.setWidth 8

/-- R49: the attribute mode of a code byte. -/
def attributeModeOf (b : Byte) : Option AttributeMode := if b = 0 then some .keep else if b = 1 then some .apply else none

/-- R49: the code byte of an attribute mode. -/
def attributeModeByte : AttributeMode → Byte
  | .keep => 0
  | .apply => 1

/-! ## Views -/

/-- R65, R68: the table or view source of a code byte. -/
def tableOf (b : Byte) : Option ViewTable := if b = 0 then some .primary else if b = 1 then some .fallback else none

/-- The code byte of a table or view source. -/
def tableByte : ViewTable → Byte
  | .primary => 0
  | .fallback => 1

/-- R65: a view index 0..3. -/
def viewIndexOf (b : Byte) : Option (Fin 4) := if h : b.toNat < 4 then some ⟨b.toNat, h⟩ else none

/-- R60: the band width in pixels. -/
def ViewRecord.bandWidth (v : ViewRecord) : Nat := v.bandRight.toNat - v.bandLeft.toNat + 1

/-- R60: the band height in pixels. -/
def ViewRecord.bandHeight (v : ViewRecord) : Nat := v.bandBottom.toNat - v.bandTop.toNat + 1

/-- R62: (x, y) is a canvas pixel of the record's band. -/
def ViewRecord.inBand (v : ViewRecord) (x y : Byte) : Bool :=
  decide (v.bandLeft ≤ x) && decide (x ≤ v.bandRight) && decide (v.bandTop ≤ y) && decide (y ≤ v.bandBottom)

/-- R62: a legal view record, but for the direction codes, which the type makes legal. -/
def ViewRecord.legal (v : ViewRecord) : Bool :=
  inRange 0 159 v.left && inRange 0 63 v.top && inRange 8 160 v.width && inRange 1 64 v.height &&
  inRange 0 127 v.bandTop && inRange 0 127 v.bandBottom &&
  decide (v.bandLeft ≤ v.bandRight) && decide (v.bandTop ≤ v.bandBottom) && v.inBand v.originX v.originY

/-- R61: the record in the fifteen bytes from `i` on; bits 2 to 7 of the flags are dropped. -/
def viewRecordAt (p : List Byte) (i : Nat) : ViewRecord :=
  { enabled := (byteAt p i).getLsbD 0, inverse := (byteAt p i).getLsbD 1
    left := byteAt p (i + 1), top := byteAt p (i + 2), width := byteAt p (i + 3), height := byteAt p (i + 4)
    originX := byteAt p (i + 5), originY := byteAt p (i + 6)
    bandLeft := byteAt p (i + 7), bandTop := byteAt p (i + 8), bandRight := byteAt p (i + 9), bandBottom := byteAt p (i + 10)
    verticalRate := byteAt p (i + 11), verticalDirection := if byteAt p (i + 12) = 0 then .up else .down
    horizontalRate := byteAt p (i + 13), horizontalDirection := if byteAt p (i + 14) = 0 then .left else .right }

/-- R62: the fifteen bytes from `i` on are a record that SET VIEW accepts. -/
def viewRecordAccepted (p : List Byte) (i : Nat) : Bool :=
  isBit (byteAt p (i + 12)) && isBit (byteAt p (i + 14)) && (viewRecordAt p i).legal

/-- R61: a vertical direction code. -/
def verticalByte : VerticalDirection → Byte
  | .up => 0
  | .down => 1

/-- R61: a horizontal direction code. -/
def horizontalByte : HorizontalDirection → Byte
  | .left => 0
  | .right => 1

/-- R61: the fifteen bytes of a record. -/
def viewRecordBytes (v : ViewRecord) : List Byte :=
  [flagBit v.enabled 0 ||| flagBit v.inverse 1, v.left, v.top, v.width, v.height, v.originX, v.originY,
   v.bandLeft, v.bandTop, v.bandRight, v.bandBottom, v.verticalRate, verticalByte v.verticalDirection,
   v.horizontalRate, horizontalByte v.horizontalDirection]

/-- The table of that name. -/
def Views.table (v : Views) : ViewTable → Vector View 4
  | .primary => v.primary
  | .fallback => v.fallback

/-- One view replaced. -/
def Views.setView (v : Views) (t : ViewTable) (i : Fin 4) (x : View) : Views :=
  match t with
  | .primary => { v with primary := v.primary.set i x }
  | .fallback => { v with fallback := v.fallback.set i x }

/-! ## Panel, alarm and link watch codes -/

/-- R83: the display mode of a code byte. -/
def displayModeOf (b : Byte) : Option DisplayMode :=
  if b = 0 then some .off else if b = 1 then some .blank else if b = 2 then some .showing else if b = 3 then some .test else none

/-- R42: the code of a display mode. -/
def displayModeByte : DisplayMode → Byte
  | .off => 0
  | .blank => 1
  | .showing => 2
  | .test => 3

/-- R80: a count of columns or rows: in its range and a multiple of 8. -/
def countOfEights (lo hi : Nat) (b : Byte) : Bool := inRange lo hi b && decide (b.toNat % 8 = 0)

/-- R166: the alarm mode of a code byte. -/
def alarmModeOf (b : Byte) : Option AlarmMode :=
  if b = 0 then some .off else if b = 1 then some .oneShot else if b = 2 then some .periodic else none

/-- R165: the code of an alarm mode. -/
def alarmModeByte : AlarmMode → Byte
  | .off => 0
  | .oneShot => 1
  | .periodic => 2

/-- R168: the fallback action of a code byte. -/
def fallbackActionOf (b : Byte) : Option FallbackAction :=
  if b = 0 then some .none else if b = 1 then some .fallback else if b = 2 then some .fallbackAndShow else none

/-- R165: the code of a fallback action. -/
def fallbackActionByte : FallbackAction → Byte
  | .none => 0
  | .fallback => 1
  | .fallbackAndShow => 2

/-- R4, R42: the code of the link state. -/
def linkStateByte : LinkState → Byte
  | .live => 0
  | .lost => 1

/-- R183: the code of a reset cause. -/
def resetCauseByte : ResetCause → Byte
  | .powerOn => 1
  | .rstPin => 2
  | .fullReset => 3
  | .restart => 4

/-- R4: the code of a power state in Link Status; Sleep-Pending is reported as Run. -/
def powerCode : PowerState → BitVec 2
  | .starting => 0
  | .run => 1
  | .sleepPending => 1
  | .doze => 2
  | .sleep => 3

/-- R12: the code of a reject reason. -/
def rejectReasonByte : RejectReason → Byte
  | .sum => 1
  | .overrun => 2
  | .direction => 3

/-- The outcome codes of section 2.3. -/
def outcomeByte : OutcomeCode → Byte
  | .done => 0
  | .unknownKind => 1
  | .badSize => 2
  | .outOfRange => 3
  | .busy => 4
  | .locked => 5
  | .wrongState => 6
  | .noRoom => 7
  | .invalidChain => 8
  | .unknownHandle => 9

/-! ## Canvas runs and rectangles -/

/-- R45: the cell index of a cell column and a row. -/
def cellIndex (column row : Nat) : Nat := row * Config.cellsPerRow + column

/-- R48: the starting cell of a run, from payload bytes 0 and 1, where they lie in their ranges. -/
def runStartOf (p : List Byte) : Option Nat :=
  if inRange 0 31 (byteAt p 0) && inRange 0 127 (byteAt p 1) then
    some (cellIndex (byteAt p 0).toNat (byteAt p 1).toNat)
  else none

/-- R48: the run of `n` cells from `start` on stays inside the canvas. -/
def runFits (start n : Nat) : Bool := decide (start + n ≤ Config.canvasCells)

/-- R105: the rectangle in four bytes from `i` on, where it passes the checks. -/
def rectangleAt (q : List Byte) (i : Nat) : Option Rectangle :=
  let r : Rectangle := { column := byteAt q i, row := byteAt q (i + 1), width := byteAt q (i + 2), height := byteAt q (i + 3) }
  if inRange 0 31 r.column && inRange 0 127 r.row && inRange 1 32 r.width && inRange 1 128 r.height &&
      decide (r.column.toNat + r.width.toNat ≤ 32) && decide (r.row.toNat + r.height.toNat ≤ 128) then some r
  else none

/-- R105: the rectangle as its four bytes. -/
def rectangleBytes (r : Rectangle) : List Byte := [r.column, r.row, r.width, r.height]

/-- R105: the cells of a rectangle in the order in which an action visits them. -/
def rectangleCells (r : Rectangle) : List Nat :=
  (List.range r.height.toNat).flatMap fun i =>
    (List.range r.width.toNat).map fun j => cellIndex (r.column.toNat + j) (r.row.toNat + i)

/-- R106: the number of cells of a rectangle. -/
def rectangleArea (r : Rectangle) : Nat := r.width.toNat * r.height.toNat

/-! ## Descriptors -/

/-- R102: a slot number 0..31. -/
def slotOf (b : Byte) : Option (Fin 32) := if h : b.toNat < 32 then some ⟨b.toNat, h⟩ else none

/-- R102: Next, 0..31 or 0xFF for End (`some none`); none where it is out of range. -/
def nextOf (b : Byte) : Option (Option (Fin 32)) := if b = 0xFF then some none else (slotOf b).map some

/-- R104: Next as its byte. -/
def nextByte : Option (Fin 32) → Byte
  | none => 0xFF
  | some n => BitVec.ofNat 8 n.val

/-- R106: the checks of a COPY, in order: offset, rectangle, fit, attribute mode. -/
def copyOf (q : List Byte) : Option Action :=
  if (wordAt q 0).toNat < Config.stagingBytes then
    match rectangleAt q 2, attributeModeOf (byteAt q 6) with
    | some r, some m =>
      if (wordAt q 0).toNat + rectangleArea r ≤ Config.stagingBytes then
        some (.copy (wordAt q 0) r m (attributesOf (byteAt q 7)))
      else none
    | _, _ => none
  else none

/-- R107: the checks of a FILL. -/
def fillOf (q : List Byte) : Option Action :=
  match rectangleAt q 0, attributeModeOf (byteAt q 5) with
  | some r, some m => some (.fill r (byteAt q 4) m (attributesOf (byteAt q 6)))
  | _, _ => none

/-- R108: the check of an ATTRIBUTE. -/
def attributeOf (q : List Byte) : Option Action :=
  (rectangleAt q 0).map fun r => .attributes r (attributesOf (byteAt q 4)) (attributesOf (byteAt q 5))

/-- R109: the checks of an ORIGIN at load; no band is looked at. -/
def originOf (q : List Byte) : Option Action :=
  match tableOf (byteAt q 0), viewIndexOf (byteAt q 1) with
  | some t, some i => if inRange 0 127 (byteAt q 3) then some (.origin t i (byteAt q 2) (byteAt q 3)) else none
  | _, _ => none

/-- R110: the checks of a VISIBILITY. -/
def visibilityOf (q : List Byte) : Option Action :=
  match tableOf (byteAt q 0), viewIndexOf (byteAt q 1) with
  | some t, some i => if isBit (byteAt q 2) then some (.visibility t i (byteAt q 2 == 1)) else none
  | _, _ => none

/-- R102: the action of an action code and the eight parameter bytes, where the checks of the action pass. -/
def actionOf (code : Byte) (q : List Byte) : Option Action :=
  if code = 1 then copyOf q
  else if code = 2 then fillOf q
  else if code = 3 then attributeOf q
  else if code = 4 then originOf q
  else if code = 5 then visibilityOf q
  else if code = 6 then some (.mark (byteAt q 0))
  else none

/-- R104: the code of an action. -/
def actionCode : Action → Byte
  | .copy .. => 1
  | .fill .. => 2
  | .attributes .. => 3
  | .origin .. => 4
  | .visibility .. => 5
  | .mark .. => 6

/-- R104: the eight parameter bytes as stored; bytes that the action does not use are 0, and so are the ignored bits
of an attribute byte (R38, R46). -/
def actionParameters : Action → List Byte
  | .copy offset r m a => wordBytes offset ++ rectangleBytes r ++ [attributeModeByte m, attributesByte a]
  | .fill r pattern m a => rectangleBytes r ++ [pattern, attributeModeByte m, attributesByte a, 0]
  | .attributes r set clear => rectangleBytes r ++ [attributesByte set, attributesByte clear, 0, 0]
  | .origin t i x y => [tableByte t, BitVec.ofNat 8 i.val, x, y, 0, 0, 0, 0]
  | .visibility t i enabled => [tableByte t, BitVec.ofNat 8 i.val, flagBit enabled 0, 0, 0, 0, 0, 0]
  | .mark value => [value, 0, 0, 0, 0, 0, 0, 0]

/-- R102: the descriptor of payload bytes 1..11, where every range check passes. -/
def descriptorOf (p : List Byte) : Option Descriptor :=
  match nextOf (byteAt p 2), actionOf (byteAt p 1) (p.drop 4) with
  | some next, some action => some { action := action, next := next, release := (byteAt p 3).getLsbD 0 }
  | _, _ => none

/-- R104: bytes 2..12 of READ DESCRIPTOR for a slot that holds a descriptor. -/
def descriptorBytes (d : Descriptor) : List Byte :=
  [actionCode d.action, nextByte d.next, flagBit d.release 0] ++ actionParameters d.action

/-! ## Keys -/

/-- R127: a key number 0..63. -/
def keyOf (b : Byte) : Option (Fin 64) := if h : b.toNat < 64 then some ⟨b.toNat, h⟩ else none

/-- R127: the flags of a key record; bits 3 to 7 are ignored. -/
def keyRecordOf (b : Byte) : KeyRecord := { enabled := b.getLsbD 0, repeats := b.getLsbD 1, wakes := b.getLsbD 2 }

/-- R129: the scan configuration of the six payload bytes, where each lies in its range. -/
def scanConfigOf (p : List Byte) : Option ScanConfig :=
  if inRange 1 10 (byteAt p 0) && inRange 1 6 (byteAt p 1) && inRange 2 32 (byteAt p 2) && inRange 1 7 (byteAt p 3) &&
      inRange 10 255 (byteAt p 4) && inRange 2 255 (byteAt p 5) then
    some { drives := (byteAt p 0).toNat, senses := (byteAt p 1).toNat, period := (byteAt p 2).toNat,
           settle := (byteAt p 3).toNat, repeatDelay := (byteAt p 4).toNat, repeatInterval := (byteAt p 5).toNat }
  else none

/-- R147: the code of an event kind. -/
def eventKindByte : EventKind → Byte
  | .press => 1
  | .release => 2
  | .repeated => 3
  | .forcedRelease => 4
  | .ghost => 5
  | .rollover => 6
  | .lost => 7

/-- R147: the four bytes of an event record. -/
def eventBytes (e : KeyEvent) : List Byte := [eventKindByte e.kind, e.key] ++ wordBytes e.time

/-- R145: a key set as eight bytes, key k in bit k modulo 8 of byte k / 8. -/
def keySetBytes (k : KeySet) : List Byte := (List.range 8).map fun i => k.extractLsb' (8 * i) 8

/-! ## Chains -/

/-- R112: the due frame of a due kind and a due value, from the frame counter; none where a field is out of range. -/
def dueFrameOf (kind : Byte) (value : Word) (counter : Word) : Option Word :=
  if kind = 0 then some (counter + 1)
  else if kind = 1 then (if 1 ≤ value.toNat ∧ value.toNat ≤ 255 then some (counter + value) else none)
  else if kind = 2 then some value
  else none

/-- R122: the code of a chain outcome. -/
def chainResultByte : ChainResult → Byte
  | .completed => 0
  | .partly => 1
  | .cancelled => 2

/-- R122: the six bytes of a pending record. -/
def pendingChainBytes (c : PendingChain) : List Byte :=
  [c.handle, BitVec.ofNat 8 c.head.val, BitVec.ofNat 8 c.length] ++ wordBytes c.due ++ [flagBit c.urgent 0]

/-- R122: the three bytes of an outcome record. -/
def chainOutcomeBytes (o : ChainOutcome) : List Byte := [o.handle, chainResultByte o.result, BitVec.ofNat 8 o.skipped]

/-- R122: `n` places of `width` bytes each, filled from the front and 0 where unused. -/
def padRecords (n width : Nat) (records : List (List Byte)) : List Byte :=
  (List.range n).flatMap fun i => records.getD i (List.replicate width 0)

end Sys2Proof.Machine
end

