-- ==== Sys2Proof/Machine/Flags.lean ====
section
/-! DEFINITION. The status flags that are worked out from the state: Link Status, the notice latch with its two level notices, Top Notice,
ATTN, and what a read of each port address returns. -/

namespace Sys2Proof.Machine

/-! ## Link Status (R4) -/

/-- R4: DRDY. -/
def drdy (s : State) : Bool := s.link.holding.isNone && s.power.state != .starting

/-- R4, R20: UAVL. -/
def uavl (s : State) : Bool := !s.link.ring.isEmpty

/-- R4: the ASSEMBLER field. -/
def assemblerCode : Assembler → BitVec 2
  | .awaitLength _ => 0
  | .collecting .. => 1
  | .hunting _ => 2

/-- R4: the byte that a read of port address 1 returns. -/
def linkStatus (s : State) : Byte :=
  powerCode s.power.state ++ BitVec.ofBool (s.time.link == .lost) ++ BitVec.ofBool s.link.underrun ++
    assemblerCode s.link.assembler ++ BitVec.ofBool (uavl s) ++ BitVec.ofBool (drdy s)

/-! ## Notices (R156, R157, R161, R162) -/

/-- Section 9.2: the bit of a notice. -/
def Notice.bit : Notice → Nat
  | .started => 0
  | .linkLost => 1
  | .linkFault => 2
  | .wake => 3
  | .keys => 4
  | .reply => 5
  | .chainDone => 6
  | .chainMark => 7
  | .alarm => 8
  | .frame => 9
  | .keyLoss => 10

/-- The latch word with only that notice's bit set. -/
def Notice.word (n : Notice) : BitVec 11 := BitVec.twoPow 11 n.bit

/-- R156: the bits of the nine sticky notices. -/
def stickyBits : BitVec 11 := ~~~(Notice.keys.word ||| Notice.reply.word)

/-- R157: the level notices as they follow their conditions. -/
def levelNotices (s : State) : BitVec 11 :=
  (if s.keys.events.isEmpty then 0 else Notice.keys.word) ||| (if s.link.ring.isEmpty then 0 else Notice.reply.word)

/-- The notice latch as it reads. -/
def noticeLatch (s : State) : BitVec 11 := (s.notices.sticky &&& stickyBits) ||| levelNotices s

/-- R161: the notices that are set and unmasked. -/
def activeNotices (s : State) : BitVec 11 := noticeLatch s &&& s.notices.mask

/-- R161: ATTN is asserted. -/
def attn (s : State) : Bool := activeNotices s != 0

/-- R162: the number of the lowest-numbered set bit plus 1, or 0. -/
def lowestBitPlusOne (w : BitVec 11) : Nat :=
  match (List.range 11).find? fun i => w.getLsbD i with
  | some i => i + 1
  | none => 0

/-- R162: Top Notice. -/
def topNotice (s : State) : Byte := BitVec.ofNat 8 (lowestBitPlusOne (activeNotices s))

/-! ## Reading a port address (R3) -/

/-- What a read of a port address returns; only the reads of addresses 0 and 1 change any state (R3). -/
def portRead (address : PortAddress) (s : State) : Byte :=
  match address.toNat with
  | 0 => s.link.ring.headD 0
  | 1 => linkStatus s
  | 2 => (noticeLatch s).extractLsb' 0 8
  | 3 => (noticeLatch s).extractLsb' 8 8
  | 4 => s.notices.mask.extractLsb' 0 8
  | 5 => s.notices.mask.extractLsb' 8 8
  | 6 => topNotice s
  | _ => Config.portIdentity

end Sys2Proof.Machine
end

