-- ==== Sys2Proof/Machine/Ops.lean ====
section
/-! DEFINITION. The operations that several commands share: saturating counts, notices, parcels, the request slots and
the engine's execution step, the canvas writes of a cell. -/

namespace Sys2Proof.Machine

/-! ## Counters and notices -/

/-- R43: a count that stops at 255. -/
def saturate (b : Byte) : Byte := if b = 255 then 255 else b + 1

/-- R156: sets a sticky notice. -/
def raise (n : Notice) (s : State) : State := { s with notices := { s.notices with sticky := s.notices.sticky ||| n.word } }

/-- R43: an overrun is counted. -/
def countOverrun (s : State) : State := { s with counters := { s.counters with overrun := saturate s.counters.overrun } }

/-- R43: a framing fault is counted. -/
def countFraming (s : State) : State := { s with counters := { s.counters with framing := saturate s.counters.framing } }

/-- R43: a Rejected parcel is counted. -/
def countReject (s : State) : State := { s with counters := { s.counters with reject := saturate s.counters.reject } }

/-- R43, R90: a late frame is counted. -/
def countLateFrame (s : State) : State := { s with counters := { s.counters with lateFrame := saturate s.counters.lateFrame } }

/-! ## Parcels (R10, R11, R12) -/

/-- R10: the sum of bytes modulo 256. -/
def byteSum (bytes : List Byte) : Byte := bytes.foldl (· + ·) 0

/-- R10: the bytes of a parcel from Length to Check; the Check makes the sum of all bytes 0. -/
def parcel (kind tag : Byte) (payload : List Byte) : List Byte :=
  let body := BitVec.ofNat 8 (payload.length + 3) :: kind :: tag :: payload
  body ++ [0 - byteSum body]

/-- R15: the Kind byte of a stored parcel. -/
def Slot.kind (slot : Slot) : Byte := byteAt slot.stored 0

/-- R15: the Tag byte of a stored parcel. -/
def Slot.tag (slot : Slot) : Byte := byteAt slot.stored 1

/-- R15: the payload of a stored parcel: what stands between the Tag and the Check. -/
def Slot.payload (slot : Slot) : List Byte := (slot.stored.drop 2).dropLast

/-- R11: the REPLY to the request of a slot. -/
def replyParcel (slot : Slot) (code : OutcomeCode) (result : List Byte) : List Byte :=
  parcel 0x80 slot.tag (slot.kind :: outcomeByte code :: result)

/-- R12: the REJECT for the parcel of a slot. -/
def rejectParcel (slot : Slot) (reason : RejectReason) : List Byte :=
  parcel 0x81 slot.tag [slot.kind, rejectReasonByte reason]

/-! ## The queue and the engine (R28 to R36) -/

/-- R29: the number of slots that are not Free. -/
def queueFill (s : State) : Nat := s.requests.slots.length

/-- R28: the front slot with another state. -/
def setFrontStage (stage : SlotStage) : List Slot → List Slot
  | [] => []
  | front :: rest => { front with stage := stage } :: rest

/-- R30, R35: the power states in which the engine runs. -/
def engineRuns : PowerState → Bool
  | .run => true
  | .doze => true
  | .starting => false
  | .sleepPending => false
  | .sleep => false

/-- What the checks and the effect of a request come to (R36, R37): a failure with its outcome code and result bytes (none but for
INVALID_CHAIN), which leaves the state alone, or DONE with the state after the effect, the result bytes, and what the posting
of the REPLY will do. -/
inductive Verdict where
  | fail (code : OutcomeCode) (result : List Byte)
  | done (after : State) (result : List Byte) (effect : PostEffect)

/-- DONE without result bytes and without an effect at the posting. -/
def doneWith (after : State) : Verdict := .done after [] .nothing

/-- DONE of a request that only reads. -/
def doneReading (s : State) (result : List Byte) : Verdict := .done s result .nothing

/-- R30: the front slot becomes Executing and the engine becomes Executing. -/
def beginExecution (s : State) : State :=
  { s with requests := { s.requests with slots := setFrontStage .executing s.requests.slots, engine := .executing } }

/-- R30, R32: the front slot and the engine are in Replying, holding the answer. -/
def holdAnswer (answer : Answer) (s : State) : State :=
  { s with requests := { s.requests with slots := setFrontStage .replying s.requests.slots, engine := .replying answer } }

/-- R30: the end of an execution step. -/
def endExecution (slot : Slot) (before : State) : Verdict → State
  | .fail code result => holdAnswer { bytes := replyParcel slot code result, effect := .nothing } before
  | .done after result effect => holdAnswer { bytes := replyParcel slot .done result, effect := effect } after

/-- R30: the slot whose request an execution step would execute, where one falls due. -/
def executionSlot (s : State) : Option Slot :=
  match s.requests.slots with
  | [] => none
  | front :: _ =>
    if s.requests.engine = .idle ∧ front.stage = .waitingGood ∧ engineRuns s.power.state = true then some front else none

/-- R30, R36: the execution step of the front slot's request, where one falls due and the request's Kind is one that `accepts` admits;
otherwise no such step falls due and nothing changes (log entry 1). -/
def execute (accepts : Byte → Bool) (body : List Byte → State → Verdict) (s : State) : State :=
  match executionSlot s with
  | none => s
  | some slot =>
    if accepts slot.kind then endExecution slot (beginExecution s) (body slot.payload (beginExecution s)) else s

/-- The execution step of a request of one catalogue code (section 2.4). -/
def executeKind (kind : Byte) (body : List Byte → State → Verdict) (s : State) : State := execute (fun k => k == kind) body s

/-! ## Canvas cells (R45 to R49) -/

/-- R49: a pixel byte, and in Apply mode an attribute set, written to one cell. -/
def writeCell (mode : AttributeMode) (a : AttributeSet) (cell : Nat) (pixel : Byte) (c : Canvas) : Canvas :=
  match mode with
  | .keep => { c with pixels := memWrite c.pixels cell pixel }
  | .apply => { c with pixels := memWrite c.pixels cell pixel, attributes := memWrite c.attributes cell (attributesByte a) }

/-- R46: the attribute set of one cell. -/
def cellAttributes (c : Canvas) (cell : Nat) : AttributeSet := attributesOf (memRead c.attributes cell)

/-- Pixel bytes written to cells, pair by pair in order. -/
def writeCells (mode : AttributeMode) (a : AttributeSet) (cells : List (Nat × Byte)) (c : Canvas) : Canvas :=
  cells.foldl (fun c cell => writeCell mode a cell.1 cell.2 c) c

end Sys2Proof.Machine
end

