-- ==== Sys2Proof/Machine/KeyOps.lean ====
section
/-! DEFINITION. The operations of the Key Scanner and the Key Event Queue: admission, the forced release, the parts of a scan pass, wake scanning. -/

namespace Sys2Proof.Machine

/-! ## The queue and its two numbers (R148, R149, R151, R152) -/

/-- Section 7.5: a reported key is in Down or Settling-Up. -/
def KeyState.reported : KeyState → Bool
  | .down => true
  | .settlingUp _ => true
  | .idle => false
  | .settlingDown _ => false
  | .suppressed _ => false

/-- Section 7.5, R148: the Down count, which is the number of outstanding releases O. -/
def downCount (s : State) : Nat := s.scanner.states.toList.countP KeyState.reported

/-- R148: the free places F. -/
def freePlaces (s : State) : Nat := Config.eventPlaces - s.keys.events.length

/-- R149: a record joins the queue at its newest end. -/
def appendEvent (kind : EventKind) (key : Byte) (time : Word) (s : State) : State :=
  { s with keys := { s.keys with events := s.keys.events ++ [{ kind := kind, key := key, time := time }] } }

/-- R151: what a refused event does. -/
def refuseEvent (s : State) : State :=
  raise .keyLoss { s with keys := { s.keys with dropped := saturate s.keys.dropped },
                          counters := { s.counters with lostKey := saturate s.counters.lostKey } }

/-- R152: the LOST marker that goes ahead of an offered event where events were dropped and there is room. -/
def queueLost (time : Word) (s : State) : State :=
  if s.keys.dropped ≠ 0 ∧ downCount s + 1 ≤ freePlaces s then
    let t := appendEvent .lost s.keys.dropped time s
    { t with keys := { t.keys with dropped := 0 } }
  else s

/-- R149: the free places that an event needs above the outstanding releases. -/
def placesNeeded : EventKind → Nat
  | .press => 2
  | .repeated => 1
  | .ghost => 1
  | .rollover => 1
  | .lost => 1
  | .release => 0
  | .forcedRelease => 0

/-- R149: the event would be admitted, judged after the LOST rule. -/
def admits (kind : EventKind) (time : Word) (s : State) : Bool :=
  decide (downCount (queueLost time s) + placesNeeded kind ≤ freePlaces (queueLost time s))

/-- R149, R151, R152: an event other than RELEASE and FORCED_RELEASE is offered. -/
def offer (kind : EventKind) (key : Byte) (time : Word) (s : State) : State :=
  if admits kind time s then appendEvent kind key time (queueLost time s) else refuseEvent (queueLost time s)

/-! ## Key states -/

/-- The byte of a key number. -/
def keyByte (k : Fin 64) : Byte := BitVec.ofNat 8 k.val

/-- One key's state replaced. -/
def setKeyState (k : Fin 64) (st : KeyState) (s : State) : State :=
  { s with scanner := { s.scanner with states := s.scanner.states.set k st } }

/-- R140, R141: no key is the repeat owner and the repeat timer is stopped. -/
def clearOwner (s : State) : State := { s with scanner := { s.scanner with owner := none, repeatTimer := none } }

/-- R134, R127: the owner is cleared if it is this key. -/
def clearOwnerIf (k : Fin 64) (s : State) : State := if s.scanner.owner = some k then clearOwner s else s

/-- R138: the rollover episode ends if the Down count is below 8. -/
def endRollover (s : State) : State :=
  if downCount s < Config.keysDownMax then { s with scanner := { s.scanner with rollover := false } } else s

/-- R127, R130, R134: a reported key becomes Idle and its RELEASE or FORCED_RELEASE is admitted. -/
def releaseReported (kind : EventKind) (k : Fin 64) (time : Word) (s : State) : State :=
  appendEvent kind (keyByte k) time (setKeyState k .idle s)

/-- R130, R144, R146: every key Idle. -/
def allKeysIdle (s : State) : State := { s with scanner := { s.scanner with states := Vector.replicate 64 .idle } }

/-- R130, R146: both episodes ended, no repeat owner, the repeat timer stopped. -/
def endEpisodes (s : State) : State :=
  { s with scanner := { s.scanner with ghost := false, rollover := false, owner := none, repeatTimer := none } }

/-- R130, step 1: every reported key, in ascending key number, receives a FORCED_RELEASE. -/
def forceReported (s : State) : State :=
  (List.finRange 64).foldl
    (fun t k => if t.scanner.states[k].reported then releaseReported .forcedRelease k s.time.ticks t else t) s

/-- R130: the forced release. -/
def forcedRelease (s : State) : State := endEpisodes (allKeysIdle (forceReported s))

/-! ## Readings (R125, R132, R136) -/

/-- R125: the drive line of a matrix key. -/
def driveLine (k : Nat) : Nat := k / 6

/-- R125: the sense line of a matrix key. -/
def senseLine (k : Nat) : Nat := k % 6

/-- R125: the key at a drive line and a sense line. -/
def matrixKey (d s : Nat) : Nat := d * 6 + s

/-- R125: an active key. -/
def keyActive (c : ScanConfig) (k : Nat) : Bool :=
  decide (60 ≤ k) || (decide (driveLine k < c.drives) && decide (senseLine k < c.senses))

/-- The set of keys that satisfy a test. -/
def keysWhere (f : Nat → Bool) : KeySet := (List.range 64).foldl (fun acc k => if f k then acc ||| BitVec.twoPow 64 k else acc) 0

/-- R125, R132: of these keys the active ones: what a pass reads of lines that show these keys closed. -/
def sampled (c : ScanConfig) (closed : KeySet) : KeySet := closed &&& keysWhere (keyActive c)

/-- R136: the key is ambiguous in these raw closures. -/
def ambiguous (raw : KeySet) (k : Nat) : Bool :=
  decide (k < 60) &&
    (List.range 6).any fun s => s != senseLine k && raw.getLsbD (matrixKey (driveLine k) s) &&
      (List.range 10).any fun d => d != driveLine k && raw.getLsbD (matrixKey d (senseLine k)) && raw.getLsbD (matrixKey d s)

/-- R136: the active keys at which three of these keys are the other corners of a rectangle. -/
def fourthCorners (c : ScanConfig) (keys : KeySet) : KeySet := keysWhere fun k => keyActive c k && ambiguous keys k

/-- R132, R136: the active keys that a path of closures joins in so many rounds: those whose contact is closed, and in each round the fourth
corners of what the round before joined. The first round gives the keys round which three closed keys lead. -/
def joined (c : ScanConfig) (contacts : KeySet) : Nat → KeySet
  | 0 => sampled c contacts
  | rounds + 1 =>
    let keys := joined c contacts rounds
    keys ||| fourthCorners c keys

/-- R132, R136: the keys that the lines show closed: those whose contact is closed and those round which three such keys lead. DESIGN CHOICE (log
entry 16): a longer path, of which the rules state nothing, shows its key closed where the command says so. Six sense lines leave no path more
than 11 keys, and three rounds join 27. -/
def linesShow (longGhosts : KeySet) (s : State) : KeySet :=
  joined s.scanner.config s.pins.contacts 1 ||| (longGhosts &&& joined s.scanner.config s.pins.contacts 3)

/-- R133, step 1: some closed matrix key is ambiguous. -/
def anyAmbiguous (raw : KeySet) : Bool := (List.range 60).any fun k => raw.getLsbD k && ambiguous raw k

/-! ## The parts of a scan pass (R133 to R141) -/

/-- R132: the pass samples the lines. -/
def samplePass (longGhosts : KeySet) (s : State) : State :=
  { s with scanner := { s.scanner with raw := sampled s.scanner.config (linesShow longGhosts s) } }

/-- R133, step 1: the ghost episode ends where no closed matrix key is ambiguous. -/
def ghostCheck (s : State) : State :=
  if anyAmbiguous s.scanner.raw then s else { s with scanner := { s.scanner with ghost := false } }

/-- R134: a reported key that has been open for `count` passes. -/
def settleUp (k : Fin 64) (count : Nat) (s : State) : State :=
  if s.scanner.config.settle ≤ count then
    endRollover (clearOwnerIf k (releaseReported .release k s.time.ticks s))
  else setKeyState k (.settlingUp count) s

/-- R134: an enabled key read open. -/
def readOpen (k : Fin 64) (s : State) : State :=
  match s.scanner.states[k] with
  | .idle => s
  | .settlingDown _ => setKeyState k .idle s
  | .down => settleUp k 1 s
  | .settlingUp n => settleUp k (n + 1) s
  | .suppressed m => if s.scanner.config.settle ≤ m + 1 then setKeyState k .idle s else setKeyState k (.suppressed (m + 1)) s

/-- R137: the key is stopped by the ghost check. -/
def suppressGhost (k : Fin 64) (s : State) : State :=
  let t := setKeyState k (.suppressed 0) s
  if s.scanner.ghost then t
  else offer .ghost (keyByte k) s.time.ticks { t with scanner := { t.scanner with ghost := true } }

/-- R138: the key is stopped by the rollover check. -/
def suppressRollover (k : Fin 64) (s : State) : State :=
  let t := setKeyState k (.suppressed 0) s
  if s.scanner.rollover then t
  else offer .rollover (keyByte k) s.time.ticks { t with scanner := { t.scanner with rollover := true } }

/-- R139, R140, R141: the PRESS was admitted: the key is Down and the owner, and the repeat timer starts if the key repeats. -/
def becomeDown (k : Fin 64) (s : State) : State :=
  let t := setKeyState k .down s
  { t with scanner :=
      { t.scanner with
        owner := some k
        repeatTimer := if s.scanner.table[k].repeats then some (s.scanner.config.repeatDelay * 10) else none } }

/-- R139: the PRESS is offered. -/
def offerPress (k : Fin 64) (s : State) : State :=
  if admits .press s.time.ticks s then becomeDown k (offer .press (keyByte k) s.time.ticks s)
  else setKeyState k (.suppressed 0) (offer .press (keyByte k) s.time.ticks s)

/-- R136 to R139: the press-side transition. -/
def pressTransition (k : Fin 64) (s : State) : State :=
  if ambiguous s.scanner.raw k.val then suppressGhost k s
  else if Config.keysDownMax ≤ downCount s then suppressRollover k s
  else offerPress k s

/-- R135: a key that has been closed for `count` passes. -/
def settleDown (k : Fin 64) (count : Nat) (s : State) : State :=
  if s.scanner.config.settle ≤ count then pressTransition k s else setKeyState k (.settlingDown count) s

/-- R135: an enabled key read closed. -/
def readClosed (k : Fin 64) (s : State) : State :=
  match s.scanner.states[k] with
  | .idle => settleDown k 1 s
  | .settlingDown n => settleDown k (n + 1) s
  | .down => s
  | .settlingUp _ => setKeyState k .down s
  | .suppressed _ => setKeyState k (.suppressed 0) s

/-- R133, step 2: the release side. -/
def releaseSide (s : State) : State :=
  (List.finRange 64).foldl
    (fun t k => if t.scanner.table[k].enabled && !t.scanner.raw.getLsbD k.val then readOpen k t else t) s

/-- R133, step 3: the press side. -/
def pressSide (s : State) : State :=
  (List.finRange 64).foldl
    (fun t k => if t.scanner.table[k].enabled && t.scanner.raw.getLsbD k.val then readClosed k t else t) s

/-- R141: the owner and the timer's value, where step 4 of the pass serves the timer: it runs, the owner is Down at that point, and the
owner was reported before the press side (an owner that was not had its press admitted in this very pass). -/
def repeatServed (before after : State) : Option (Fin 64 × Nat) :=
  match after.scanner.owner, after.scanner.repeatTimer with
  | some k, some t =>
    if after.scanner.states[k] = .down ∧ before.scanner.states[k].reported = true then some (k, t) else none
  | _, _ => none

/-- The repeat timer with another value. -/
def setRepeatTimer (t : Nat) (s : State) : State := { s with scanner := { s.scanner with repeatTimer := some t } }

/-- R133, step 4, R141: the repeat timer is served; `before` is the state before the press side. -/
def serveRepeat (before after : State) : State :=
  match repeatServed before after with
  | none => after
  | some (k, t) =>
    if t ≤ after.scanner.config.period then
      setRepeatTimer (after.scanner.config.repeatInterval * 10) (offer .repeated (keyByte k) after.time.ticks after)
    else setRepeatTimer (t - after.scanner.config.period) after

/-- R133, steps 1 and 2. -/
def passToRelease (longGhosts : KeySet) (s : State) : State := releaseSide (ghostCheck (samplePass longGhosts s))

/-- R133: a whole scan pass. -/
def runPass (longGhosts : KeySet) (s : State) : State :=
  serveRepeat (passToRelease longGhosts s) (pressSide (passToRelease longGhosts s))

/-- R131: a scan pass has fallen due and is not yet taken; normal passes run only in Run and Sleep-Pending. -/
def passDue (s : State) : Bool :=
  decide (0 < s.scanner.passesDue) && (s.power.state == .run || s.power.state == .sleepPending)

/-- One of the passes that have fallen due is taken. -/
def takePass (s : State) : State := { s with scanner := { s.scanner with passesDue := s.scanner.passesDue - 1 } }

/-- R131, R133: the scan pass step, where a pass has fallen due. -/
def scanPassStep (longGhosts : KeySet) (s : State) : State := if passDue s then runPass longGhosts (takePass s) else s

/-- R141: in this pass the repeat timer would run out. -/
def repeatRunsOut (longGhosts : KeySet) (s : State) : Bool :=
  match repeatServed (passToRelease longGhosts s) (pressSide (passToRelease longGhosts s)) with
  | some (_, t) => decide (t ≤ s.scanner.config.period)
  | none => false

/-! ## Wake scanning (R142 to R144) -/

/-- R142: wake scanning runs exactly in Doze and Sleep. -/
def wakeScanning (s : State) : Bool := s.power.state == .doze || s.power.state == .sleep

/-- R128, R142: the key drive lines that stand driven between two steps: every active one during wake scanning, and none otherwise, since a
pass drives its lines in turn within its own step (R132). -/
def drivenLines (s : State) : BitVec 10 := if wakeScanning s then BitVec.ofNat 10 (2 ^ s.scanner.config.drives - 1) else 0

/-- R142: the line of a key: its sense line, or 6 to 9 for the direct inputs. -/
def lineOf (k : Nat) : Nat := if k < 60 then senseLine k else k - 54

/-- The keys that stand on a line: on a sense line those of the active drive lines, on a direct input its own key. -/
def lineKeys (c : ScanConfig) (line : Nat) : List Nat :=
  if line < 6 then (List.range c.drives).map fun d => matrixKey d line else [line + 54]

/-- R142: the line is watched: an active sense line or a direct input. -/
def lineWatched (c : ScanConfig) (line : Nat) : Bool := decide (line < c.senses) || decide (6 ≤ line)

/-- R142: with every active drive line driven, the line reads closed. -/
def lineClosed (c : ScanConfig) (contacts : KeySet) (line : Nat) : Bool :=
  (lineKeys c line).any fun k => contacts.getLsbD k

/-- R143: the line is a wake line, or a direct input whose key wakes. -/
def wakeLine (s : Scanner) (line : Nat) : Bool :=
  (lineKeys s.config line).any fun k =>
    match s.table[k]? with
    | some r => r.enabled && r.wakes
    | none => false

/-- R142: the watched lines that read open. -/
def openLines (c : ScanConfig) (contacts : KeySet) : BitVec 10 :=
  (List.range 10).foldl
    (fun acc line => if lineWatched c line && !lineClosed c contacts line then acc ||| BitVec.twoPow 10 line else acc) 0

/-- R142, R143: every watched line is armed if it reads open and unarmed if it reads closed. -/
def armLines (s : State) : State :=
  { s with scanner := { s.scanner with armed := openLines s.scanner.config s.pins.contacts } }

/-- R142: wake scanning begins: the raw closures are cleared, passes stop, the watched lines are armed. -/
def beginWakeScanning (s : State) : State :=
  armLines { s with scanner := { s.scanner with raw := 0, passesDue := 0 } }

/-- One line armed or unarmed. -/
def setArmed (line : Nat) (armed : Bool) (s : State) : State :=
  { s with scanner := { s.scanner with armed :=
      if armed then s.scanner.armed ||| BitVec.twoPow 10 line else s.scanner.armed &&& ~~~(BitVec.twoPow 10 line) } }

/-- R143, R179: a wake is reported, so that a wake step falls due. -/
def reportWake (s : State) : State := { s with power := { s.power with wakeDue := true } }

/-- The key set with one key closed or open. -/
def setContact (k : Nat) (closed : Bool) (keys : KeySet) : KeySet :=
  if closed then keys ||| BitVec.twoPow 64 k else keys &&& ~~~(BitVec.twoPow 64 k)

/-- R142, R143: what a watched line does that changes its reading during wake scanning. -/
def lineChanges (line : Nat) (closed : Bool) (s : State) : State :=
  if closed then
    if s.scanner.armed.getLsbD line && wakeLine s.scanner line then reportWake (setArmed line false s) else setArmed line false s
  else setArmed line true s

/-- R142: a key contact closes or opens. During wake scanning the line it stands on may change its reading. -/
def contactChanges (k : Fin 64) (closed : Bool) (s : State) : State :=
  let contacts := setContact k.val closed s.pins.contacts
  let t := { s with pins := { s.pins with contacts := contacts } }
  let line := lineOf k.val
  if wakeScanning s && lineWatched s.scanner.config line &&
      lineClosed s.scanner.config s.pins.contacts line != lineClosed s.scanner.config contacts line then
    lineChanges line closed t
  else t

end Sys2Proof.Machine
end

