-- ==== Sys2Proof/Machine/PowerOps.lean ====
section
/-! DEFINITION. The changes of power state, the resets, and what happens at the end of a step (R32, R177). -/

namespace Sys2Proof.Machine

/-! ## Frames and the return to Run (R94, R95, R180) -/

/-- R94: the power states in which the Frame Sequencer and the scan passes run. -/
def framesRun : PowerState → Bool
  | .run => true
  | .sleepPending => true
  | .starting => false
  | .doze => false
  | .sleep => false

/-- R94: the Frame Sequencer stops: the frame in progress and a boundary not yet taken are abandoned, every output is grounded. -/
def stopFrames (s : State) : State :=
  { s with frames := { s.frames with row := none, resuming := false }, panel := { s.panel with drive := .grounded } }

/-- The part in another power state. -/
def setPower (p : PowerState) (s : State) : State := { s with power := { s.power with state := p } }

/-- R168, R169, R171: the watch count is loaded with the period times 100 if the watch is on and the link is Live. -/
def loadWatch (s : State) : State :=
  if s.time.watchPeriod ≠ 0 ∧ s.time.link = .live then
    { s with time := { s.time with watchCount := BitVec.ofNat 16 (s.time.watchPeriod.toNat * 100) } }
  else s

/-- R180, step 1: the notice of a return to Run from this power state. -/
def returnNotice : PowerState → Notice
  | .starting => .started
  | .run => .wake
  | .sleepPending => .wake
  | .doze => .wake
  | .sleep => .wake

/-- R180, steps 2 and 3: wake scanning stops, the raw closures are open, every key is Idle, the pass timer is loaded. -/
def resumeScanning (s : State) : State :=
  let t := allKeysIdle s
  { t with scanner := { t.scanner with raw := 0, armed := 0, passTimer := t.scanner.config.period } }

/-- R172, R180: the power state becomes Run from Starting, Doze or Sleep, with the return procedure; any wake step that is
due finds the part in Run and does nothing more (R176). An engine that is Replying stays so with its parcel, though R180 calls the engine Idle
after the return: R30 ends the execution of WAKE in Replying, and R33 gives up a held parcel by its posting (log entry 31). -/
def returnToRun (s : State) : State :=
  let t := resumeScanning (raise (returnNotice s.power.state) s)
  let u := if s.power.state = .sleep then loadWatch t else t
  { u with power := { u.power with state := .run, wakeDue := false }, frames := { u.frames with resuming := true } }

/-! ## Doze and Sleep (R175, R177) -/

/-- R175, R177: the entry to Doze or to Sleep: the power state, the forced release, wake scanning, the frames. -/
def enterLowPower (p : PowerState) (s : State) : State := stopFrames (beginWakeScanning (forcedRelease (setPower p s)))

/-- R177: the entry conditions of Sleep. -/
def sleepReady (s : State) : Bool :=
  s.power.state == .sleepPending && s.link.ring.isEmpty && assemblerCode s.link.assembler == 0 && s.link.holding.isNone

/-- R177: Sleep is entered within the step after which the entry conditions hold. -/
def enterSleepIfReady (s : State) : State := if sleepReady s then enterLowPower .sleep s else s

/-! ## The turn of a Rejected slot (R32) -/

/-- R32: the reason of a Waiting, Rejected slot at the front. -/
def frontRejection (s : State) : Option (Slot × RejectReason) :=
  match s.requests.slots with
  | [] => none
  | front :: _ =>
    match front.stage with
    | .waitingRejected reason => some (front, reason)
    | .filling => none
    | .waitingGood => none
    | .executing => none
    | .replying => none

/-- R32: a step that leaves the engine Idle, in Run or Doze, with a Rejected slot at the front builds its REJECT. -/
def buildReject (s : State) : State :=
  if s.requests.engine = .idle ∧ engineRuns s.power.state = true then
    match frontRejection s with
    | some (front, reason) => holdAnswer { bytes := rejectParcel front reason, effect := .nothing } s
    | none => s
  else s

/-- R32, R177: what happens at the end of a step within that same step: the turn of a Rejected slot and the entry to Sleep. -/
def closeStep (s : State) : State := enterSleepIfReady (buildReject s)

/-! ## Resets (R25, R26, R173, R174, R181, R182) -/

/-- R181, first column: a reset of the power-on kind. The clearing of the memories is part of it (log entry 6); the pins and the
waiting commands are not state that a reset gives a value. -/
def resetPart (cause : ResetCause) (s : State) : State :=
  { State.reset with power := defaultPower cause, pins := s.pins, pending := s.pending }

/-- R101, R124: a Held slot returns to Loaded. -/
def returnToLoaded : PoolSlot → PoolSlot
  | .free => .free
  | .loaded d => .loaded d
  | .held _ d => .loaded d

/-- R35: a Waiting slot, Good or Rejected. -/
def SlotStage.waiting : SlotStage → Bool
  | .waitingGood => true
  | .waitingRejected _ => true
  | .filling => false
  | .executing => false
  | .replying => false

/-- R182: the warm reset gives every block the value of the RESTART column of R181, and the reset cause becomes 4. It is made within the
posting of the RESTART reply, when that reply's slot has been freed and the engine is Idle. -/
def warmReset (s : State) : State :=
  let t := endEpisodes (allKeysIdle s)
  { t with
    requests := { slots := t.requests.slots.filter fun slot => !slot.stage.waiting, engine := .idle }
    chains := { t.chains with pool := Vector.ofFn fun i => returnToLoaded t.chains.pool[i], queue := [] }
    keys := defaultKeyQueue
    notices := { t.notices with sticky := 0 }
    time := { defaultTimebase with ticks := t.time.ticks }
    power := { t.power with cause := .restart } }

end Sys2Proof.Machine
end

