-- ==== Sys2Proof/Machine/Port.lean ====
section
/-! DEFINITION. The host's accesses to the port (R3 to R9, R23 to R25, R158, R160) and the posting (R33). -/

namespace Sys2Proof.Machine

/-! ## Link Data and Link Status -/

/-- R8: what an overrun marks, by the state of the assembler. -/
def markOverrun : Assembler → Assembler
  | .awaitLength _ => .awaitLength true
  | .collecting toCome sum _ gap => .collecting toCome sum true gap
  | .hunting gap => .hunting gap

/-- R8: a write to Link Data while a byte is held. -/
def overrun (s : State) : State :=
  countOverrun (raise .linkFault
    { s with link := { s.link with overrunMet := true, assembler := markOverrun s.link.assembler } })

/-- R6, R179: the byte is held; in Sleep that is a wake event. -/
def holdByte (value : Byte) (s : State) : State :=
  let t := { s with link := { s.link with holding := some value, overrunMet := false } }
  if s.power.state = .sleep then reportWake t else t

/-- R6, R8: a write to Link Data. -/
def writeLinkData (value : Byte) (s : State) : State :=
  if s.power.state = .starting then s
  else
    match s.link.holding with
    | none => holdByte value s
    | some _ => overrun s

/-- The byte that a read drives on the data lines. -/
def driveData (value : Byte) (s : State) : State := { s with pins := { s.pins with data := value } }

/-- R9: a read of Link Data. -/
def readLinkData (s : State) : State :=
  match s.link.ring with
  | [] => driveData 0 { s with link := { s.link with underrun := true } }
  | b :: rest => closeStep (driveData b { s with link := { s.link with ring := rest } })

/-- R4: a read of Link Status; the clearing of UNDERRUN follows the value's return. -/
def readLinkStatus (s : State) : State :=
  { s with pins := { s.pins with data := linkStatus s }, link := { s.link with underrun := false } }

/-! ## Link Control -/

/-- R24, R34: the engine after a RESYNC: Idle, but Suspended where it is suspended for sleep. -/
def resyncEngine : EngineState → EngineState
  | .suspended => .suspended
  | .idle => .idle
  | .executing => .idle
  | .replying _ => .idle

/-- R23, R24: the RESYNC. -/
def resyncLink (s : State) : State :=
  if s.power.state = .starting then s
  else
    closeStep
      { s with
        link := { s.link with holding := none, overrunMet := false, ring := [], assembler := .awaitLength false }
        requests := { slots := [], engine := resyncEngine s.requests.engine } }

/-- R25, R174: the FULL RESET; while RST is held low it only sets the reset cause. -/
def fullResetPart (s : State) : State :=
  if s.pins.rstLow then { s with power := { s.power with cause := .fullReset } } else resetPart .fullReset s

/-- R5: a write to Link Control: bit 1 is FULL RESET, bit 0 is RESYNC. -/
def writeLinkControl (value : Byte) (s : State) : State :=
  if value.getLsbD 1 then fullResetPart s
  else if value.getLsbD 0 && !s.pins.rstLow then resyncLink s
  else s

/-! ## Notices -/

/-- R158: the notices that an acknowledge byte names: the low byte of the latch or, at the high address, its top three bits. -/
def acknowledgeBits (high : Bool) (value : Byte) : BitVec 11 :=
  if high then value.extractLsb' 0 3 ++ (0 : BitVec 8) else (0 : BitVec 3) ++ value

/-- R158: an acknowledge clears the sticky notices written as 1. -/
def acknowledge (high : Bool) (value : Byte) (s : State) : State :=
  { s with notices := { s.notices with sticky := s.notices.sticky &&& ~~~(acknowledgeBits high value &&& stickyBits) } }

/-- R160: the mask after a mask write: the bits of the address's notices are the byte's, the others stay. -/
def writtenMask (high : Bool) (value : Byte) (mask : BitVec 11) : BitVec 11 :=
  if high then value.extractLsb' 0 3 ++ mask.extractLsb' 0 8 else mask.extractLsb' 8 3 ++ value

/-- R160: a mask write replaces the mask bits of its notices whole. -/
def writeMask (high : Bool) (value : Byte) (s : State) : State :=
  { s with notices := { s.notices with mask := writtenMask high value s.notices.mask } }

/-! ## Writing a port address (R3, R174) -/

/-- R3: a write to a port address. While RST is held low every write but a FULL RESET is ignored (R174). -/
def portWrite (address : PortAddress) (value : Byte) (s : State) : State :=
  if address = 1 then writeLinkControl value s
  else if s.pins.rstLow then s
  else if address = 0 then writeLinkData value s
  else if address = 2 then acknowledge false value s
  else if address = 3 then acknowledge true value s
  else if address = 4 then writeMask false value s
  else if address = 5 then writeMask true value s
  else s

/-! ## The meanings -/

/-- LINK_DATA_WRITE (R6, R8). -/
def execLinkDataWrite (value : Byte) (s : State) : Host.Outcome State Fault Refusal := .next (portWrite 0 value s)

/-- LINK_DATA_READ (R9). -/
def execLinkDataRead (s : State) : Host.Outcome State Fault Refusal := .next (readLinkData s)

/-- LINK_STATUS_READ (R4). -/
def execLinkStatusRead (s : State) : Host.Outcome State Fault Refusal := .next (readLinkStatus s)

/-- RESYNC (R5, R23, R24). -/
def execResync (value : Byte) (s : State) : Host.Outcome State Fault Refusal := .next (portWrite 1 value s)

/-- FULL_RESET (R5, R25). -/
def execFullReset (value : Byte) (s : State) : Host.Outcome State Fault Refusal := .next (portWrite 1 value s)

/-- NOTICE_ACKNOWLEDGE (R158). -/
def execNoticeAcknowledge (address : PortAddress) (value : Byte) (s : State) : Host.Outcome State Fault Refusal :=
  .next (portWrite address value s)

/-- NOTICE_MASK (R160). -/
def execNoticeMask (address : PortAddress) (value : Byte) (s : State) : Host.Outcome State Fault Refusal :=
  .next (portWrite address value s)

/-- IGNORED_PORT_WRITE (R3). -/
def execIgnoredPortWrite (address : PortAddress) (value : Byte) (s : State) : Host.Outcome State Fault Refusal :=
  .next (portWrite address value s)

/-! ## Posting (R21, R33) -/

/-- R21, R33: the held answer, where the ring has room for every byte of it. -/
def postable (s : State) : Option Answer :=
  match s.requests.engine with
  | .replying a => if s.link.ring.length + a.bytes.length ≤ Config.ringBytes then some a else none
  | .idle => none
  | .executing => none
  | .suspended => none

/-- R33: the bytes are appended, the front slot is freed, the engine becomes Idle. -/
def postBytes (a : Answer) (s : State) : State :=
  { s with
    link := { s.link with ring := s.link.ring ++ a.bytes }
    requests := { slots := s.requests.slots.tail, engine := .idle } }

/-- R33, R175, R177, R182: what the posting of this REPLY does besides. -/
def postEffect : PostEffect → State → State
  | .nothing, s => s
  | .warmReset, s => warmReset s
  | .enterDoze, s => enterLowPower .doze s
  | .enterSleep, s => { setPower .sleepPending s with requests := { s.requests with engine := .suspended } }

/-- R33: the posting step, where it falls due. -/
def postingStep (s : State) : State :=
  match postable s with
  | some a => closeStep (postEffect a.effect (postBytes a s))
  | none => s

/-- POSTING (R33). -/
def execPosting (s : State) : Host.Outcome State Fault Refusal := .next (postingStep s)

end Sys2Proof.Machine
end

