-- ==== Sys2Proof/Machine/Taking.lean ====
section
/-! DEFINITION. The Parcel Assembler's taking of a byte (R7, R13 to R18) and the completion of a parcel (R12, R16). -/

namespace Sys2Proof.Machine

/-- R7: the assembler is able to take a byte: its power states, and in Await Length a Free slot. -/
def ableToTake (s : State) : Bool :=
  (s.power.state == .run || s.power.state == .sleepPending || s.power.state == .doze) &&
    (assemblerCode s.link.assembler != 0 || decide (queueFill s < Config.requestSlots))

/-- R13: a legal Length byte. -/
def legalLength (b : Byte) : Bool := inRange Config.minLength Config.maxLength b

/-- The assembler in another state. -/
def setAssembler (a : Assembler) (s : State) : State := { s with link := { s.link with assembler := a } }

/-- R7: the holding register becomes empty. -/
def emptyHolding (s : State) : State := { s with link := { s.link with holding := none, overrunMet := false } }

/-- R13: a slot is allocated, joins the queue at its tail and is Filling. -/
def allocateSlot (s : State) : State :=
  { s with requests := { s.requests with slots := s.requests.slots ++ [{ stage := .filling, stored := [] }] } }

/-- R178: the allocation of a slot abandons a pending sleep: the power state becomes Run and the engine Idle. -/
def abandonSleep (s : State) : State :=
  if s.power.state = .sleepPending then
    { setPower .run s with requests := { s.requests with engine := .idle } }
  else s

/-- R13, R14: a byte taken in Await Length is a Length byte. -/
def takeLength (preMark : Bool) (b : Byte) (s : State) : State :=
  if legalLength b then
    abandonSleep (setAssembler (.collecting b.toNat b preMark Config.gapTicks) (allocateSlot s))
  else countFraming (raise .linkFault (setAssembler (.hunting Config.gapTicks) s))

/-- R12: the lowest reason that applies to a complete parcel, if any: its check sum, its damage flag, its Kind. -/
def rejection (sum : Byte) (damaged : Bool) (kind : Byte) : Option RejectReason :=
  if sum ≠ 0 then some .sum
  else if damaged then some .overrun
  else if kind.getLsbD 7 then some .direction
  else none

/-- A change of the Filling slot. -/
def onFilling (f : Slot → Slot) (slots : List Slot) : List Slot := slots.map fun slot => if slot.stage = .filling then f slot else slot

/-- The Filling slot of the queue. -/
def fillingSlot (slots : List Slot) : Option Slot := slots.find? fun slot => slot.stage = .filling

/-- R15: the byte is stored in the Filling slot. -/
def storeByte (b : Byte) (s : State) : State :=
  { s with requests := { s.requests with slots := onFilling (fun slot => { slot with stored := slot.stored ++ [b] }) s.requests.slots } }

/-- R16: the Filling slot becomes Waiting with its mark. -/
def markFilling (stage : SlotStage) (s : State) : State :=
  { s with requests := { s.requests with slots := onFilling (fun slot => { slot with stage := stage }) s.requests.slots } }

/-- R16, R169: the signal of a completed Good parcel: the link is Live and the watch restarts. -/
def goodParcel (s : State) : State := loadWatch { s with time := { s.time with link := .live } }

/-- R16: the parcel in the Filling slot is complete. -/
def completeParcel (sum : Byte) (damaged : Bool) (s : State) : State :=
  match fillingSlot s.requests.slots with
  | none => s
  | some slot =>
    match rejection sum damaged slot.kind with
    | none => goodParcel (markFilling .waitingGood s)
    | some reason => countReject (markFilling (.waitingRejected reason) s)

/-- R15, R16: a byte taken in Collecting. -/
def takeCollecting (toCome : Nat) (sum : Byte) (damaged : Bool) (b : Byte) (s : State) : State :=
  if toCome ≤ 1 then completeParcel (sum + b) damaged (setAssembler (.awaitLength false) (storeByte b s))
  else setAssembler (.collecting (toCome - 1) (sum + b) damaged Config.gapTicks) (storeByte b s)

/-- R7: the byte is handled according to the state of the assembler. -/
def handleByte (b : Byte) (s : State) : State :=
  match s.link.assembler with
  | .awaitLength preMark => takeLength preMark b s
  | .collecting toCome sum damaged _ => takeCollecting toCome sum damaged b s
  | .hunting _ => setAssembler (.hunting Config.gapTicks) s

/-- R7: the taking step, where it falls due. -/
def takingStep (s : State) : State :=
  match s.link.holding with
  | none => s
  | some b => if ableToTake s then closeStep (handleByte b (emptyHolding s)) else s

/-- BYTE_TAKEN (R7). -/
def execByteTaken (s : State) : Host.Outcome State Fault Refusal := .next (takingStep s)

end Sys2Proof.Machine
end

