-- ==== Sys2Proof/Machine/Apply.lean ====
section
/-! DEFINITION. Descriptor chains: the walk, holding and releasing slots, the descriptor actions and the application of a chain (R106 to R120). -/

namespace Sys2Proof.Machine

/-! ## Walking a chain (R113, R118) -/

/-- The descriptor of a slot that is not Free. -/
def slotRecord : PoolSlot → Option Descriptor
  | .free => none
  | .loaded d => some d
  | .held _ d => some d

/-- R113: the slot is Loaded, and with which descriptor. -/
def loadedRecord : PoolSlot → Option Descriptor
  | .free => none
  | .loaded d => some d
  | .held _ _ => none

/-- R118: the slots that a walk from `slot` visits, following each Next until End; `fuel` bounds the walk. -/
def chainSlots (pool : Vector PoolSlot 32) : Nat → Fin 32 → List (Fin 32)
  | 0, _ => []
  | fuel + 1, slot =>
    match slotRecord pool[slot] with
    | none => []
    | some d =>
      match d.next with
      | none => [slot]
      | some n => slot :: chainSlots pool fuel n

/-- R113: the reasons a walk fails. -/
inductive WalkFault where
  | notLoaded | revisited | tooLong
  deriving DecidableEq, Repr

/-- R113: what a walk comes to: the visited slots in order, or a failure at a position, for a reason, with the slot it names. -/
inductive WalkResult where
  | sound (slots : List (Fin 32))
  | failed (position : Nat) (reason : WalkFault) (slot : Fin 32)
  deriving DecidableEq, Repr

/-- R113: the walk at position 31 - `left`, with the slots visited before; the tests in the rule's order. -/
def walkChain (pool : Vector PoolSlot 32) (visited : List (Fin 32)) : Nat → Fin 32 → WalkResult
  | left, slot =>
    match loadedRecord pool[slot] with
    | none => .failed visited.length .notLoaded slot
    | some d =>
      if slot ∈ visited then .failed visited.length .revisited slot
      else
        match d.next, left with
        | none, _ => .sound (visited ++ [slot])
        | some n, 0 => .failed (visited.length + 1) .tooLong n
        | some n, left + 1 => walkChain pool (visited ++ [slot]) left n

/-- R113: the code of a walk's reason. -/
def walkFaultByte : WalkFault → Byte
  | .notLoaded => 1
  | .revisited => 2
  | .tooLong => 3

/-! ## Pool and queue -/

/-- One pool slot replaced. -/
def setPoolSlot (i : Fin 32) (x : PoolSlot) (s : State) : State := { s with chains := { s.chains with pool := s.chains.pool.set i x } }

/-- Each of the listed slots changed. -/
def mapPoolSlots (f : PoolSlot → PoolSlot) (slots : List (Fin 32)) (pool : Vector PoolSlot 32) : Vector PoolSlot 32 :=
  slots.foldl (fun (p : Vector PoolSlot 32) (i : Fin 32) => p.set i (f p[i])) pool

/-- R114: a Loaded slot is Held by a chain. -/
def holdSlot (handle : Byte) : PoolSlot → PoolSlot
  | .loaded d => .held handle d
  | .free => .free
  | .held h d => .held h d

/-- R119: a slot leaves Held when its chain has been applied: Free if its Release flag is set, else Loaded. -/
def releaseSlot : PoolSlot → PoolSlot
  | .held _ d => if d.release then .free else .loaded d
  | .free => .free
  | .loaded d => .loaded d

/-- R116: where a new record joins the queue. -/
def enqueueChain (c : PendingChain) (queue : List PendingChain) : List PendingChain :=
  if c.urgent then queue.takeWhile (fun x => x.urgent) ++ c :: queue.dropWhile (fun x => x.urgent) else queue ++ [c]

/-- R115: the handle after a handle; 255 is followed by 1. -/
def nextHandle (h : Byte) : Byte := if h = 255 then 1 else h + 1

/-- R115: the first candidate from `h` on that no pending chain holds; `fuel` candidates are passed over at most. -/
def freshHandle (queue : List PendingChain) : Nat → Byte → Byte
  | 0, h => h
  | fuel + 1, h => if queue.any (fun c => c.handle == h) then freshHandle queue fuel (nextHandle h) else h

/-- R120: a record joins the recent-outcome list at its newest end; the oldest of four goes first. -/
def recordOutcome (o : ChainOutcome) (outcomes : List ChainOutcome) : List ChainOutcome :=
  (if Config.outcomePlaces ≤ outcomes.length then outcomes.tail else outcomes) ++ [o]

/-! ## The descriptor actions (R106 to R111) -/

/-- R106: a COPY. -/
def applyCopy (offset : Word) (r : Rectangle) (m : AttributeMode) (a : AttributeSet) (s : State) : State :=
  let staged := memReadRun s.staging offset.toNat (rectangleArea r)
  { s with canvas := writeCells m a ((rectangleCells r).zip staged) s.canvas }

/-- R107: a FILL. -/
def applyFill (r : Rectangle) (pattern : Byte) (m : AttributeMode) (a : AttributeSet) (s : State) : State :=
  { s with canvas := writeCells m a ((rectangleCells r).map fun cell => (cell, pattern)) s.canvas }

/-- R108: the new attribute set of a cell: the set mask wins over the clear mask. -/
def changeAttributes (set clear old : AttributeSet) : AttributeSet := set ||| (old &&& ~~~clear)

/-- R108: the attribute plane with one cell's set changed. -/
def changeCell (set clear : AttributeSet) (m : Memory) (cell : Nat) : Memory :=
  memWrite m cell (attributesByte (changeAttributes set clear (attributesOf (memRead m cell))))

/-- R108: an ATTRIBUTE. -/
def applyAttribute (r : Rectangle) (set clear : AttributeSet) (s : State) : State :=
  { s with canvas := { s.canvas with attributes := (rectangleCells r).foldl (changeCell set clear) s.canvas.attributes } }

/-- R64, R109: the view with the new origin and both scroll counters 0. -/
def moveOrigin (x y : Byte) (v : View) : View :=
  { record := { v.record with originX := x, originY := y }, verticalCount := 0, horizontalCount := 0 }

/-- R110: the view with its Enabled flag set or cleared. -/
def showView (enabled : Bool) (v : View) : View := { v with record := { v.record with enabled := enabled } }

/-- R109: an ORIGIN is skipped where the new origin lies outside the band of the view as it stands. -/
def originSkipped (t : ViewTable) (i : Fin 4) (x y : Byte) (s : State) : Bool := !(s.views.table t)[i].record.inBand x y

/-- R109: an ORIGIN. -/
def applyOrigin (t : ViewTable) (i : Fin 4) (x y : Byte) (s : State) : State :=
  if originSkipped t i x y s then s
  else { s with views := s.views.setView t i (moveOrigin x y (s.views.table t)[i]) }

/-- R110: a VISIBILITY. -/
def applyVisibility (t : ViewTable) (i : Fin 4) (enabled : Bool) (s : State) : State :=
  { s with views := s.views.setView t i (showView enabled (s.views.table t)[i]) }

/-- R111: a MARK. -/
def applyMark (value : Byte) (s : State) : State := raise .chainMark { s with chains := { s.chains with lastMark := value } }

/-- R118: the effect of one action. -/
def applyAction : Action → State → State
  | .copy offset r m a, s => applyCopy offset r m a s
  | .fill r pattern m a, s => applyFill r pattern m a s
  | .attributes r set clear, s => applyAttribute r set clear s
  | .origin t i x y, s => applyOrigin t i x y s
  | .visibility t i enabled, s => applyVisibility t i enabled s
  | .mark value, s => applyMark value s

/-- R109: the action is skipped; only an ORIGIN can be. -/
def actionSkipped : Action → State → Bool
  | .origin t i x y, s => originSkipped t i x y s
  | .copy .., _ => false
  | .fill .., _ => false
  | .attributes .., _ => false
  | .visibility .., _ => false
  | .mark .., _ => false

/-! ## Application (R117 to R119) -/

/-- R118: the actions one after another, each on what the ones before it left. -/
def runActions (actions : List Action) (s : State) : State := actions.foldl (fun t a => applyAction a t) s

/-- R119: the skipped count: the actions that are skipped as `runActions` comes to them. -/
def countSkipped : List Action → State → Nat
  | [], _ => 0
  | a :: rest, s => (if actionSkipped a s then 1 else 0) + countSkipped rest (applyAction a s)

/-- R118: the actions of the visited slots. -/
def chainActions (pool : Vector PoolSlot 32) (slots : List (Fin 32)) : List Action :=
  slots.filterMap fun i => (slotRecord pool[i]).map fun d => d.action

/-- R119: the outcome of an applied chain. -/
def appliedOutcome (handle : Byte) (skipped : Nat) : ChainOutcome :=
  { handle := handle, result := if skipped = 0 then .completed else .partly, skipped := skipped }

/-- R117, R119: what the end of an application does: slots leave Held, the record leaves the queue, the outcome is recorded. -/
def finishChain (c : PendingChain) (slots : List (Fin 32)) (skipped : Nat) (s : State) : State :=
  { s with chains :=
      { s.chains with
        pool := mapPoolSlots releaseSlot slots s.chains.pool
        queue := s.chains.queue.erase c
        outcomes := recordOutcome (appliedOutcome c.handle skipped) s.chains.outcomes } }

/-- R118, R119: one chain is applied whole. -/
def applyChain (c : PendingChain) (s : State) : State :=
  let slots := chainSlots s.chains.pool 32 c.head
  let actions := chainActions s.chains.pool slots
  finishChain c slots (countSkipped actions s) (runActions actions s)

/-- R117: the records due at the frame counter's value, in queue order. -/
def dueChains (s : State) : List PendingChain := s.chains.queue.filter fun c => c.due == s.frames.counter

/-- R117, R119: step 6 of the boundary; CHAIN_DONE is set once if a chain was applied. -/
def applyDueChains (s : State) : State :=
  let due := dueChains s
  let t := due.foldl (fun t c => applyChain c t) s
  if due.isEmpty then t else raise .chainDone t

end Sys2Proof.Machine
end

