-- ==== Sys2Proof/Machine/Frame.lean ====
section
/-! DEFINITION. The frame boundary procedure (R85, R87 to R92, R95) and auto-scroll (R74 to R76). -/

namespace Sys2Proof.Machine

/-- R89, step 3: the frame counter advances. -/
def countFrame (s : State) : State := { s with frames := { s.frames with counter := s.frames.counter + 1 } }

/-- R85: the other blink phase. -/
def BlinkPhase.other : BlinkPhase → BlinkPhase
  | .shown => .hidden
  | .hidden => .shown

/-- R85: the blink counter advances, and on reaching the period becomes 0 and toggles the phase. -/
def advanceBlink (s : State) : State :=
  if s.frames.blinkCount + 1 = s.frames.blinkPeriod then
    { s with frames := { s.frames with blinkCount := 0, blinkPhase := s.frames.blinkPhase.other } }
  else { s with frames := { s.frames with blinkCount := s.frames.blinkCount + 1 } }

/-! ## Auto-scroll -/

/-- R75: Origin Y after a one-pixel move. -/
def movedY (v : ViewRecord) : Byte :=
  match v.verticalDirection with
  | .up => BitVec.ofNat 8 (v.bandTop.toNat + (v.originY.toNat - v.bandTop.toNat + 1) % v.bandHeight)
  | .down => BitVec.ofNat 8 (v.bandTop.toNat + (v.originY.toNat - v.bandTop.toNat + v.bandHeight - 1) % v.bandHeight)

/-- R75: Origin X after a one-pixel move. -/
def movedX (v : ViewRecord) : Byte :=
  match v.horizontalDirection with
  | .left => BitVec.ofNat 8 (v.bandLeft.toNat + (v.originX.toNat - v.bandLeft.toNat + 1) % v.bandWidth)
  | .right => BitVec.ofNat 8 (v.bandLeft.toNat + (v.originX.toNat - v.bandLeft.toNat + v.bandWidth - 1) % v.bandWidth)

/-- R74: the vertical scroll of a visited view. -/
def scrollVertical (v : View) : View :=
  if v.record.verticalRate = 0 then v
  else if v.verticalCount + 1 = v.record.verticalRate then
    { v with verticalCount := 0, record := { v.record with originY := movedY v.record } }
  else { v with verticalCount := v.verticalCount + 1 }

/-- R74: the horizontal scroll of a visited view. -/
def scrollHorizontal (v : View) : View :=
  if v.record.horizontalRate = 0 then v
  else if v.horizontalCount + 1 = v.record.horizontalRate then
    { v with horizontalCount := 0, record := { v.record with originX := movedX v.record } }
  else { v with horizontalCount := v.horizontalCount + 1 }

/-- R74: one view at step 5; a disabled view does not take part. -/
def scrollView (v : View) : View := if v.record.enabled then scrollHorizontal (scrollVertical v) else v

/-- R74: step 5 of the boundary: the views of both tables; no view's step depends on another's. -/
def autoScroll (s : State) : State :=
  { s with views := { s.views with
      primary := Vector.ofFn fun i => scrollView s.views.primary[i]
      fallback := Vector.ofFn fun i => scrollView s.views.fallback[i] } }

/-! ## Snapshot and frame -/

/-- R92: the snapshot of a state. -/
def snapshotOf (s : State) : Snapshot :=
  { primary := Vector.ofFn fun i => s.views.primary[i].record
    fallback := Vector.ofFn fun i => s.views.fallback[i].record
    source := s.views.source, backdrop := s.views.backdrop, mode := s.panel.mode, phase := s.frames.blinkPhase }

/-- R89, step 8. -/
def takeSnapshot (s : State) : State := { s with panel := { s.panel with snapshot := snapshotOf s } }

/-- R89, step 9, R93: the new frame begins at row 0. Its outputs are grounded if the snapshot mode is Off; otherwise no row is
selected before row 0 is scanned out (log entry 7). R84: the polarity is reversed. -/
def openFrame (s : State) : State :=
  { s with
    frames := { s.frames with row := some 0, resuming := false, polarity := !s.frames.polarity }
    panel := { s.panel with drive := if s.panel.snapshot.mode = .off then .grounded else .unselected } }

/-- The engine in another state. -/
def setEngine (e : EngineState) (s : State) : State := { s with requests := { s.requests with engine := e } }

/-- R89, steps 2 to 9: the engine is Suspended (R91), the counter, blink, scroll, chains, FRAME and snapshot follow, and the
engine returns to the state it left. -/
def boundary (s : State) : State :=
  let left := s.requests.engine
  let t := raise .frame (applyDueChains (autoScroll (advanceBlink (countFrame (setEngine .suspended s)))))
  closeStep (openFrame (setEngine left (takeSnapshot t)))

/-- R93: the row whose scan-out falls due next, in a frame whose snapshot mode is not Off. -/
def dueRow (s : State) : Option Nat :=
  match s.frames.row with
  | none => none
  | some r =>
    if framesRun s.power.state = true ∧ s.panel.snapshot.mode ≠ .off ∧ r < s.panel.rows.toNat then some r else none

/-- R88, R94, R95: an ordinary boundary can be taken: the Frame Sequencer runs, no resuming boundary is waiting to start its schedule, and every
row of the frame that the boundary ends has been scanned (no row is skipped, R88). -/
def boundaryDue (s : State) : Bool := framesRun s.power.state && !s.frames.resuming && (dueRow s).isNone

/-- R95: a resuming boundary has fallen due. -/
def resumingDue (s : State) : Bool := framesRun s.power.state && s.frames.resuming

/-- R90: a boundary that waited for an execution step counts as late. -/
def countWait (waited : Bool) (s : State) : State := if waited then countLateFrame s else s

/-- FRAME_BOUNDARY (R89). -/
def execFrameBoundary (waited : Bool) (s : State) : Host.Outcome State Fault Refusal :=
  .next (if boundaryDue s then boundary (countWait waited s) else s)

/-- RESUMING_BOUNDARY (R95): never counted as late. -/
def execResumingBoundary (s : State) : Host.Outcome State Fault Refusal := .next (if resumingDue s then boundary s else s)

end Sys2Proof.Machine
end

