-- ==== Sys2Proof/Machine/Compose.lean ====
section
/-! DEFINITION. Composition (R70 to R73) and the scan-out of a row (R84, R93). -/

namespace Sys2Proof.Machine

/-- R60: the panel rectangle of a record contains (px, py). -/
def ViewRecord.covers (v : ViewRecord) (px py : Nat) : Bool :=
  decide (v.left.toNat ≤ px) && decide (px < v.left.toNat + v.width.toNat) &&
    decide (v.top.toNat ≤ py) && decide (py < v.top.toNat + v.height.toNat)

/-- The table of the snapshot that its view source names (R69). -/
def Snapshot.shownTable (p : Snapshot) : Vector ViewRecord 4 :=
  match p.source with
  | .primary => p.primary
  | .fallback => p.fallback

/-- R70: the covering view: the enabled view with the lowest index whose rectangle contains the pixel. -/
def coveringView (p : Snapshot) (px py : Nat) : Option ViewRecord :=
  p.shownTable.toList.find? fun v => v.enabled && v.covers px py

/-- R71: the canvas column that a view shows at a panel column. -/
def canvasColumn (v : ViewRecord) (px : Nat) : Nat :=
  v.bandLeft.toNat + (v.originX.toNat - v.bandLeft.toNat + (px - v.left.toNat)) % v.bandWidth

/-- R71: the canvas row that a view shows at a panel row. -/
def canvasRow (v : ViewRecord) (py : Nat) : Nat :=
  v.bandTop.toNat + (v.originY.toNat - v.bandTop.toNat + (py - v.top.toNat)) % v.bandHeight

/-- R45, R71: the canvas pixel at (x, y). -/
def canvasPixel (c : Canvas) (x y : Nat) : Bool := (memRead c.pixels (cellIndex (x / 8) y)).getLsbD (7 - x % 8)

/-- R72: the value shown for a pixel: the two inversions first, then the two blankings. `oddFrame`: the frame counter is odd. -/
def shownValue (pixel : Bool) (a : AttributeSet) (inverse : Bool) (phase : BlinkPhase) (oddFrame : Bool) : Bool :=
  let inverted := (pixel != a.getLsbD 1) != inverse
  if a.getLsbD 0 && phase == .hidden then false
  else if a.getLsbD 2 && oddFrame then false
  else inverted

/-- R72, R73: the composed value of a panel pixel. -/
def composedValue (s : State) (px py : Nat) : Bool :=
  match coveringView s.panel.snapshot px py with
  | none => s.panel.snapshot.backdrop
  | some v =>
    let x := canvasColumn v px
    let y := canvasRow v py
    shownValue (canvasPixel s.canvas x y) (cellAttributes s.canvas (cellIndex (x / 8) y)) v.inverse
      s.panel.snapshot.phase (s.frames.counter.getLsbD 0)

/-- A segment level for a pixel that is on or off. -/
def levelOf (on : Bool) : SegmentLevel := if on then .on else .off

/-- R73, R84: the level of a configured segment in a scanned row. -/
def segmentLevel (s : State) (px py : Nat) : SegmentLevel :=
  match s.panel.snapshot.mode with
  | .off => .off
  | .blank => .off
  | .showing => levelOf (composedValue s px py)
  | .test => .on

/-- R84: the levels of the 160 segment outputs for a row: pixel drive up to the column count, the unselected level beyond. -/
def rowLevels (s : State) (py : Nat) : List SegmentLevel :=
  (List.range Config.segmentOutputs).map fun px => if px < s.panel.columns.toNat then segmentLevel s px py else .unselected

/-- R93: the scan-out of row `r`: its common is selected and every segment driven, at the present contrast (R81). -/
def scanRow (r : Nat) (s : State) : State :=
  { s with
    panel := { s.panel with drive := .row r s.panel.contrast (rowLevels s r) }
    frames := { s.frames with row := some (r + 1) } }

/-- R84, R94: the charge pump runs only while a frame of Blank, Show or Test is being scanned. -/
def chargePump (s : State) : Bool :=
  framesRun s.power.state && s.frames.row.isSome && s.panel.snapshot.mode != .off

/-- ROW_SCAN_OUT (R93). -/
def execRowScanOut (s : State) : Host.Outcome State Fault Refusal :=
  .next (match dueRow s with
    | some r => scanRow r s
    | none => s)

end Sys2Proof.Machine
end

