-- ==== Sys2Proof/Machine/Tick.lean ====
section
/-! DEFINITION. The tick (R164): the gap timer (R15, R17, R18), the pass timer (R131), the alarm (R167) and the link watch (R169); the scan pass
and the wake scanning commands. -/

namespace Sys2Proof.Machine

/-- R164: the power states in which ticks fall due. -/
def ticksRun : PowerState → Bool
  | .run => true
  | .sleepPending => true
  | .doze => true
  | .starting => false
  | .sleep => false

/-- R164, step 1. -/
def advanceTick (s : State) : State := { s with time := { s.time with ticks := s.time.ticks + 1 } }

/-- R17, R18: the pre-mark with which Await Length is entered from a timeout: an overrun met the byte that is still held. -/
def leftPreMark (s : State) : Bool := s.link.holding.isSome && s.link.overrunMet

/-- R17: the gap timeout abandons the parcel. -/
def abandonParcel (s : State) : State :=
  let t := { s with requests := { s.requests with slots := s.requests.slots.filter fun slot => decide (slot.stage ≠ .filling) } }
  countFraming (raise .linkFault (setAssembler (.awaitLength (leftPreMark s)) t))

/-- R164, step 2: the gap timer is served, if it runs. -/
def serveGap (s : State) : State :=
  match s.link.assembler with
  | .awaitLength _ => s
  | .collecting toCome sum damaged gap =>
    if gap ≤ 1 then abandonParcel s else setAssembler (.collecting toCome sum damaged (gap - 1)) s
  | .hunting gap =>
    if gap ≤ 1 then setAssembler (.awaitLength (leftPreMark s)) s else setAssembler (.hunting (gap - 1)) s

/-- R131, R164, step 3: the pass timer is served in Run and Sleep-Pending; at 0 a pass falls due and the timer is reloaded. -/
def servePassTimer (s : State) : State :=
  if framesRun s.power.state then
    if s.scanner.passTimer ≤ 1 then
      { s with scanner := { s.scanner with passTimer := s.scanner.config.period, passesDue := s.scanner.passesDue + 1 } }
    else { s with scanner := { s.scanner with passTimer := s.scanner.passTimer - 1 } }
  else s

/-- R167: the alarm after an expiry: reloaded if Periodic, Off if One-shot. -/
def expiredAlarm (t : Timebase) : Timebase :=
  match t.alarmMode with
  | .periodic => { t with alarmCount := t.alarmPeriod }
  | .oneShot => { t with alarmMode := .off, alarmCount := 0, alarmPeriod := 0 }
  | .off => t

/-- R167: the alarm expires; in Doze with the Wake flag set the part returns to Run. -/
def alarmExpires (s : State) : State :=
  let t := raise .alarm { s with time := expiredAlarm s.time }
  if s.power.state = .doze ∧ s.time.alarmWake = true then returnToRun t else t

/-- R167: the next served tick brings the alarm count to 0. -/
def alarmRunsOut (t : Timebase) : Bool := t.alarmMode != .off && t.alarmCount == 1

/-- R164, step 4: the alarm is served. -/
def serveAlarm (s : State) : State :=
  if s.time.alarmMode = .off then s
  else if alarmRunsOut s.time then alarmExpires s
  else { s with time := { s.time with alarmCount := s.time.alarmCount - 1 } }

/-- R169: the display mode after the fallback action. -/
def fallbackMode : DisplayMode → DisplayMode
  | .off => .showing
  | .blank => .showing
  | .showing => .showing
  | .test => .test

/-- R169: the fallback action. -/
def fallbackAction : FallbackAction → State → State
  | .none, s => s
  | .fallback, s => { s with views := { s.views with source := .fallback } }
  | .fallbackAndShow, s =>
    { s with views := { s.views with source := .fallback }, panel := { s.panel with mode := fallbackMode s.panel.mode } }

/-- R169: the watch expires: the link becomes Lost, LINK_LOST is set, the fallback action is carried out. -/
def watchExpires (s : State) : State :=
  fallbackAction s.time.watchAction (raise .linkLost { s with time := { s.time with watchCount := 0, link := .lost } })

/-- R169: the watch runs. -/
def watchRuns (t : Timebase) : Bool := t.watchPeriod != 0 && t.link == .live

/-- R164, step 5: the link watch is served. -/
def serveWatch (s : State) : State :=
  if watchRuns s.time then
    if s.time.watchCount = 1 then watchExpires s else { s with time := { s.time with watchCount := s.time.watchCount - 1 } }
  else s

/-- R164: the tick step, where ticks run. -/
def tickStep (s : State) : State :=
  if ticksRun s.power.state then closeStep (serveWatch (serveAlarm (servePassTimer (serveGap (advanceTick s))))) else s

/-- R17: the next tick is one at which the gap timer reaches 0 in Collecting. -/
def gapTimeoutDue (s : State) : Bool :=
  ticksRun s.power.state &&
    match s.link.assembler with
    | .collecting _ _ _ gap => decide (gap ≤ 1)
    | .awaitLength _ => false
    | .hunting _ => false

/-- R18: the next tick is one at which the gap timer reaches 0 in Hunting. -/
def huntingEndDue (s : State) : Bool :=
  ticksRun s.power.state &&
    match s.link.assembler with
    | .hunting gap => decide (gap ≤ 1)
    | .awaitLength _ => false
    | .collecting .. => false

/-- R167: the next tick is one at which the alarm expires. -/
def alarmExpiryDue (s : State) : Bool := ticksRun s.power.state && alarmRunsOut s.time

/-- R169: the next tick is one at which the watch expires. -/
def watchExpiryDue (s : State) : Bool := ticksRun s.power.state && watchRuns s.time && s.time.watchCount == 1

/-- TICK (R164). -/
def execTick (s : State) : Host.Outcome State Fault Refusal := .next (tickStep s)

/-- GAP_TIMEOUT (R17): the tick step at which the gap timer reaches 0 in Collecting. -/
def execGapTimeout (s : State) : Host.Outcome State Fault Refusal := .next (if gapTimeoutDue s then tickStep s else s)

/-- HUNTING_END (R18): the tick step at which the gap timer reaches 0 in Hunting. -/
def execHuntingEnd (s : State) : Host.Outcome State Fault Refusal := .next (if huntingEndDue s then tickStep s else s)

/-- ALARM_EXPIRY (R167): the tick step at which the alarm count reaches 0. -/
def execAlarmExpiry (s : State) : Host.Outcome State Fault Refusal := .next (if alarmExpiryDue s then tickStep s else s)

/-- LINK_WATCH_EXPIRY (R169): the tick step at which the watch count reaches 0. -/
def execLinkWatchExpiry (s : State) : Host.Outcome State Fault Refusal := .next (if watchExpiryDue s then tickStep s else s)

/-- SCAN_PASS (R133). -/
def execScanPass (longGhosts : KeySet) (s : State) : Host.Outcome State Fault Refusal := .next (scanPassStep longGhosts s)

/-- REPEAT (R141): the scan pass in which the repeat timer runs out. -/
def execRepeatEvent (longGhosts : KeySet) (s : State) : Host.Outcome State Fault Refusal :=
  .next (if repeatRunsOut longGhosts s then scanPassStep longGhosts s else s)

/-- WATCHED_LINE_CHANGE (R142). -/
def execWatchedLineChange (key : Fin 64) (closed : Bool) (s : State) : Host.Outcome State Fault Refusal :=
  .next (contactChanges key closed s)

/-! ## Power states and resets -/

/-- SLEEP_ENTRY (R177): where the entry conditions hold, Sleep is entered. -/
def execSleepEntry (s : State) : Host.Outcome State Fault Refusal := .next (enterSleepIfReady s)

/-- R34, R179: the engine resumes from the suspension for sleep. An engine that holds a parcel in Doze keeps it: R180 says that the engine is
Idle after the return, and R30 and R33 keep the parcel until it is posted; the model follows R33 (log entry 31). -/
def resumeEngine (s : State) : State := if s.requests.engine = .suspended then setEngine .idle s else s

/-- R143, R179: a wake step is due. -/
def wakeStepDue (s : State) : Bool := wakeScanning s && s.power.wakeDue

/-- WAKE_STEP (R179). -/
def execWakeStep (s : State) : Host.Outcome State Fault Refusal :=
  .next (if wakeStepDue s then closeStep (returnToRun (resumeEngine s)) else s)

/-- R173, R174: the clearing has run its 4 ms; it does not begin while RST is held low. -/
def startingEnds (s : State) : Bool := s.power.state == .starting && !s.pins.rstLow

/-- END_OF_STARTING (R173). -/
def execEndOfStarting (s : State) : Host.Outcome State Fault Refusal := .next (if startingEnds s then returnToRun s else s)

/-- POWER_ON_RESET (R174). -/
def execPowerOnReset (s : State) : Host.Outcome State Fault Refusal := .next (resetPart .powerOn s)

/-- The RST input at a level. -/
def setRst (low : Bool) (s : State) : State := { s with pins := { s.pins with rstLow := low } }

/-- R174: RST driven low resets the part and holds it at the beginning of Starting; its release begins the clearing and
overwrites nothing. A level that RST already has is no change of it. -/
def rstChanges (low : Bool) (s : State) : State :=
  if low && !s.pins.rstLow then setRst true (resetPart .rstPin s) else setRst low s

/-- RST_PIN_RESET (R174). -/
def execRstPinReset (low : Bool) (s : State) : Host.Outcome State Fault Refusal := .next (rstChanges low s)

end Sys2Proof.Machine
end

