-- ==== Sys2Proof/Machine/General.lean ====
section
/-! DEFINITION. The general requests (R39 to R44) and the requests that change the power state (R175 to R177, R182). -/

namespace Sys2Proof.Machine

/-- Section 2.4: the 38 codes of the catalogue. -/
def knownKinds : List Byte :=
  [0x01, 0x02, 0x03, 0x04, 0x05, 0x10, 0x11, 0x12, 0x13, 0x18, 0x19, 0x1A, 0x1B, 0x1C, 0x1D, 0x1E, 0x20, 0x21, 0x22, 0x23,
   0x28, 0x29, 0x2A, 0x2B, 0x2C, 0x2D, 0x2E, 0x30, 0x31, 0x32, 0x33, 0x34, 0x38, 0x39, 0x3A, 0x3B, 0x3C, 0x3D]

/-- R39: a Kind that is not in the catalogue. -/
def unknownKind (k : Byte) : Bool := !knownKinds.contains k

/-- R39: a request of an unknown kind has no effect. -/
def unknownKindBody (_payload : List Byte) (_s : State) : Verdict := .fail .unknownKind []

/-- UNKNOWN_KIND_REQUEST (R39). -/
def execUnknownKindRequest (s : State) : Host.Outcome State Fault Refusal := .next (execute unknownKind unknownKindBody s)

/-- R40: the 23 result bytes of IDENTIFY. -/
def identity : List Byte :=
  wordBytes Config.partCode ++ [Config.siliconRevision] ++ wordBytes 256 ++
    [128, 3, 4, 2, 160, 64] ++ wordBytes 1024 ++ [32, 4, 4, 4, 192, 63, 64, 8, 24, 11]

/-- R40. -/
def identifyBody (payload : List Byte) (s : State) : Verdict :=
  if payload.length ≠ 0 then .fail .badSize [] else doneReading s identity

/-- IDENTIFY (R40). -/
def execIdentify (s : State) : Host.Outcome State Fault Refusal := .next (executeKind 0x01 identifyBody s)

/-- R41: the payload comes back unchanged. -/
def echoBody (payload : List Byte) (s : State) : Verdict :=
  if 58 < payload.length then .fail .badSize [] else doneReading s payload

/-- ECHO (R41). -/
def execEcho (s : State) : Host.Outcome State Fault Refusal := .next (executeKind 0x02 echoBody s)

/-- R44: the five counters as they are reported. -/
def counterBytes (c : Counters) : List Byte := [c.overrun, c.framing, c.reject, c.lateFrame, c.lostKey]

/-- R42: the 13 result bytes of GET STATUS. -/
def statusBytes (s : State) : List Byte :=
  [(powerCode s.power.state).setWidth 8, displayModeByte s.panel.mode, tableByte s.views.source, linkStateByte s.time.link,
   resetCauseByte s.power.cause, BitVec.ofNat 8 (queueFill s), BitVec.ofNat 8 s.keys.events.length,
   BitVec.ofNat 8 s.chains.queue.length] ++ counterBytes s.counters

/-- R42. -/
def getStatusBody (payload : List Byte) (s : State) : Verdict :=
  if payload.length ≠ 0 then .fail .badSize [] else doneReading s (statusBytes s)

/-- GET_STATUS (R42). -/
def execGetStatus (s : State) : Host.Outcome State Fault Refusal := .next (executeKind 0x03 getStatusBody s)

/-- R44: the counters are returned and set to 0. -/
def clearCountersBody (payload : List Byte) (s : State) : Verdict :=
  if payload.length ≠ 0 then .fail .badSize []
  else doneReading { s with counters := defaultCounters } (counterBytes s.counters)

/-- CLEAR_COUNTERS (R44). -/
def execClearCounters (s : State) : Host.Outcome State Fault Refusal := .next (executeKind 0x04 clearCountersBody s)

/-- R182: the execution changes nothing; the posting of the REPLY performs the warm reset. -/
def restartBody (payload : List Byte) (s : State) : Verdict :=
  if payload.length ≠ 0 then .fail .badSize [] else .done s [] .warmReset

/-- RESTART (R182). -/
def execRestart (s : State) : Host.Outcome State Fault Refusal := .next (executeKind 0x05 restartBody s)

/-- R175: in Doze DONE at once; else BUSY while a chain is pending; else the posting of the REPLY enters Doze. -/
def enterDozeBody (payload : List Byte) (s : State) : Verdict :=
  if payload.length ≠ 0 then .fail .badSize []
  else if s.power.state = .doze then doneWith s
  else if s.chains.queue.length ≠ 0 then .fail .busy []
  else .done s [] .enterDoze

/-- ENTER_DOZE (R175). -/
def execEnterDoze (s : State) : Host.Outcome State Fault Refusal := .next (executeKind 0x3B enterDozeBody s)

/-- R177: WRONG_STATE in Doze; else BUSY while a chain is pending; else the posting of the REPLY enters Sleep-Pending. -/
def enterSleepBody (payload : List Byte) (s : State) : Verdict :=
  if payload.length ≠ 0 then .fail .badSize []
  else if s.power.state = .doze then .fail .wrongState []
  else if s.chains.queue.length ≠ 0 then .fail .busy []
  else .done s [] .enterSleep

/-- ENTER_SLEEP (R177). -/
def execEnterSleep (s : State) : Host.Outcome State Fault Refusal := .next (executeKind 0x3C enterSleepBody s)

/-- R176: in Doze the part returns to Run; in Run nothing changes. -/
def wakeBody (payload : List Byte) (s : State) : Verdict :=
  if payload.length ≠ 0 then .fail .badSize []
  else if s.power.state = .doze then doneWith (returnToRun s)
  else doneWith s

/-- WAKE (R176). -/
def execWake (s : State) : Host.Outcome State Fault Refusal := .next (executeKind 0x3D wakeBody s)

end Sys2Proof.Machine
end

