-- ==== Sys2Proof/Machine/CanvasRequests.lean ====
section
/-! DEFINITION. The canvas requests (R48 to R57). -/

namespace Sys2Proof.Machine

/-- R50: the cells of a run with their pixel bytes. -/
def runCells (start : Nat) (pixels : List Byte) : List (Nat × Byte) := ((List.range pixels.length).map fun k => start + k).zip pixels

/-- R50. -/
def writeCanvasBody (payload : List Byte) (s : State) : Verdict :=
  if payload.length < 5 ∨ 60 < payload.length then .fail .badSize []
  else
    match runStartOf payload, attributeModeOf (byteAt payload 2) with
    | some start, some mode =>
      if runFits start (payload.length - 4) then
        let cells := runCells start (payload.drop 4)
        doneWith { s with canvas := writeCells mode (attributesOf (byteAt payload 3)) cells s.canvas }
      else .fail .outOfRange []
    | _, _ => .fail .outOfRange []

/-- WRITE_CANVAS (R50). -/
def execWriteCanvas (s : State) : Host.Outcome State Fault Refusal := .next (executeKind 0x18 writeCanvasBody s)

/-- R51, R53: the start and the count of a read run, where its range stage passes; `most` is the largest count. -/
def readRunOf (most : Nat) (payload : List Byte) : Option (Nat × Nat) :=
  match runStartOf payload with
  | none => none
  | some start =>
    let n := (byteAt payload 2).toNat
    if inRange 1 most (byteAt payload 2) && runFits start n then some (start, n) else none

/-- R51. -/
def readCanvasBody (payload : List Byte) (s : State) : Verdict :=
  if payload.length ≠ 3 then .fail .badSize []
  else
    match readRunOf 56 payload with
    | some (start, n) => doneReading s (memReadRun s.canvas.pixels start n)
    | none => .fail .outOfRange []

/-- READ_CANVAS (R51). -/
def execReadCanvas (s : State) : Host.Outcome State Fault Refusal := .next (executeKind 0x19 readCanvasBody s)

/-- R46: what an attribute byte leaves stored: bits 0 to 2 alone. -/
def storedAttributes (b : Byte) : Byte := attributesByte (attributesOf b)

/-- R52. -/
def writeAttributesBody (payload : List Byte) (s : State) : Verdict :=
  if payload.length < 3 ∨ 60 < payload.length then .fail .badSize []
  else
    match runStartOf payload with
    | some start =>
      if runFits start (payload.length - 2) then
        let attributes := memWriteRun s.canvas.attributes start ((payload.drop 2).map storedAttributes)
        doneWith { s with canvas := { s.canvas with attributes := attributes } }
      else .fail .outOfRange []
    | none => .fail .outOfRange []

/-- WRITE_ATTRIBUTES (R52). -/
def execWriteAttributes (s : State) : Host.Outcome State Fault Refusal := .next (executeKind 0x1A writeAttributesBody s)

/-- R53. -/
def readAttributesBody (payload : List Byte) (s : State) : Verdict :=
  if payload.length ≠ 3 then .fail .badSize []
  else
    match readRunOf 58 payload with
    | some (start, n) => doneReading s ((memReadRun s.canvas.attributes start n).map storedAttributes)
    | none => .fail .outOfRange []

/-- READ_ATTRIBUTES (R53). -/
def execReadAttributes (s : State) : Host.Outcome State Fault Refusal := .next (executeKind 0x1B readAttributesBody s)

/-- R54. -/
def clearCanvasBody (payload : List Byte) (s : State) : Verdict :=
  if payload.length ≠ 2 then .fail .badSize []
  else if isBit (byteAt payload 0) then
    let pixels := memFill Config.canvasCells (if byteAt payload 0 = 1 then 0xFF else 0)
    let attributes := memFill Config.canvasCells (storedAttributes (byteAt payload 1))
    doneWith { s with canvas := { s.canvas with pixels := pixels, attributes := attributes } }
  else .fail .outOfRange []

/-- CLEAR_CANVAS (R54). -/
def execClearCanvas (s : State) : Host.Outcome State Fault Refusal := .next (executeKind 0x1E clearCanvasBody s)

/-- R56: the cursor step of a code byte. -/
def cursorStepOf (b : Byte) : Option CursorStep := if b = 0 then some .forward else if b = 1 then some .backward else none

/-- R56. -/
def setCursorBody (payload : List Byte) (s : State) : Verdict :=
  if payload.length ≠ 3 then .fail .badSize []
  else if Config.canvasCells ≤ (wordAt payload 0).toNat then .fail .outOfRange []
  else
    match cursorStepOf (byteAt payload 2) with
    | some step => doneWith { s with canvas := { s.canvas with cursor := (wordAt payload 0).setWidth 12, step := step } }
    | none => .fail .outOfRange []

/-- SET_CURSOR (R56). -/
def execSetCursor (s : State) : Host.Outcome State Fault Refusal := .next (executeKind 0x1C setCursorBody s)

/-- R57: the cell `k` steps on from a cell, modulo 4096. -/
def cursorAfter (cursor : BitVec 12) (step : CursorStep) (k : Nat) : BitVec 12 :=
  match step with
  | .forward => cursor + BitVec.ofNat 12 k
  | .backward => cursor - BitVec.ofNat 12 k

/-- R57: the cells that WRITE AT CURSOR writes, with their pixel bytes, in order. -/
def cursorCells (cursor : BitVec 12) (step : CursorStep) (pixels : List Byte) : List (Nat × Byte) :=
  ((List.range pixels.length).map fun k => (cursorAfter cursor step k).toNat).zip pixels

/-- R57: the state after WRITE AT CURSOR. -/
def writtenAtCursor (mode : AttributeMode) (a : AttributeSet) (pixels : List Byte) (c : Canvas) : Canvas :=
  { writeCells mode a (cursorCells c.cursor c.step pixels) c with cursor := cursorAfter c.cursor c.step pixels.length }

/-- R57. -/
def writeAtCursorBody (payload : List Byte) (s : State) : Verdict :=
  if payload.length < 3 ∨ 59 < payload.length then .fail .badSize []
  else
    match attributeModeOf (byteAt payload 0) with
    | some mode =>
      let canvas := writtenAtCursor mode (attributesOf (byteAt payload 1)) (payload.drop 2) s.canvas
      doneReading { s with canvas := canvas } (wordBytes (canvas.cursor.setWidth 16))
    | none => .fail .outOfRange []

/-- WRITE_AT_CURSOR (R57). -/
def execWriteAtCursor (s : State) : Host.Outcome State Fault Refusal := .next (executeKind 0x1D writeAtCursorBody s)

end Sys2Proof.Machine
end

