-- ==== Sys2Proof/Machine/ViewRequests.lean ====
section
/-! DEFINITION. The view requests (R65 to R68) and the panel requests (R80, R81, R83, R86). -/

namespace Sys2Proof.Machine

/-- R65, R66: the table and the view that the first two payload bytes name. -/
def viewNameOf (payload : List Byte) : Option (ViewTable × Fin 4) :=
  match tableOf (byteAt payload 0), viewIndexOf (byteAt payload 1) with
  | some t, some i => some (t, i)
  | _, _ => none

/-- R65. -/
def setViewBody (payload : List Byte) (s : State) : Verdict :=
  if payload.length ≠ 17 then .fail .badSize []
  else
    match viewNameOf payload with
    | some (t, i) =>
      if viewRecordAccepted payload 2 then
        let view : View := { record := viewRecordAt payload 2, verticalCount := 0, horizontalCount := 0 }
        doneWith { s with views := s.views.setView t i view }
      else .fail .outOfRange []
    | none => .fail .outOfRange []

/-- SET_VIEW (R65). -/
def execSetView (s : State) : Host.Outcome State Fault Refusal := .next (executeKind 0x20 setViewBody s)

/-- R66: the 17 result bytes of GET VIEW. -/
def viewBytes (v : View) : List Byte := viewRecordBytes v.record ++ [v.verticalCount, v.horizontalCount]

/-- R66. -/
def getViewBody (payload : List Byte) (s : State) : Verdict :=
  if payload.length ≠ 2 then .fail .badSize []
  else
    match viewNameOf payload with
    | some (t, i) => doneReading s (viewBytes (s.views.table t)[i])
    | none => .fail .outOfRange []

/-- GET_VIEW (R66). -/
def execGetView (s : State) : Host.Outcome State Fault Refusal := .next (executeKind 0x21 getViewBody s)

/-- R67. -/
def setBackdropBody (payload : List Byte) (s : State) : Verdict :=
  if payload.length ≠ 1 then .fail .badSize []
  else if isBit (byteAt payload 0) then doneWith { s with views := { s.views with backdrop := byteAt payload 0 == 1 } }
  else .fail .outOfRange []

/-- SET_BACKDROP (R67). -/
def execSetBackdrop (s : State) : Host.Outcome State Fault Refusal := .next (executeKind 0x22 setBackdropBody s)

/-- R68. -/
def selectViewsBody (payload : List Byte) (s : State) : Verdict :=
  if payload.length ≠ 1 then .fail .badSize []
  else
    match tableOf (byteAt payload 0) with
    | some t => doneWith { s with views := { s.views with source := t } }
    | none => .fail .outOfRange []

/-- SELECT_VIEWS (R68). -/
def execSelectViews (s : State) : Host.Outcome State Fault Refusal := .next (executeKind 0x23 selectViewsBody s)

/-- R80: the range stage of CONFIGURE PANEL. -/
def panelFieldsOk (payload : List Byte) : Bool :=
  countOfEights 32 160 (byteAt payload 0) && countOfEights 16 64 (byteAt payload 1) && inRange 40 125 (byteAt payload 2)

/-- R80: WRONG_STATE unless the display mode and the snapshot mode are both Off. -/
def configurePanelBody (payload : List Byte) (s : State) : Verdict :=
  if payload.length ≠ 3 then .fail .badSize []
  else if !panelFieldsOk payload then .fail .outOfRange []
  else if s.panel.mode ≠ .off ∨ s.panel.snapshot.mode ≠ .off then .fail .wrongState []
  else
    let panel := { s.panel with columns := byteAt payload 0, rows := byteAt payload 1, frameRate := byteAt payload 2 }
    doneWith { s with panel := panel }

/-- CONFIGURE_PANEL (R80). -/
def execConfigurePanel (s : State) : Host.Outcome State Fault Refusal := .next (executeKind 0x10 configurePanelBody s)

/-- R83. -/
def setDisplayModeBody (payload : List Byte) (s : State) : Verdict :=
  if payload.length ≠ 1 then .fail .badSize []
  else
    match displayModeOf (byteAt payload 0) with
    | some m => doneWith { s with panel := { s.panel with mode := m } }
    | none => .fail .outOfRange []

/-- SET_DISPLAY_MODE (R83). -/
def execSetDisplayMode (s : State) : Host.Outcome State Fault Refusal := .next (executeKind 0x11 setDisplayModeBody s)

/-- R81. -/
def setContrastBody (payload : List Byte) (s : State) : Verdict :=
  if payload.length ≠ 1 then .fail .badSize []
  else if inRange 0 31 (byteAt payload 0) then doneWith { s with panel := { s.panel with contrast := byteAt payload 0 } }
  else .fail .outOfRange []

/-- SET_CONTRAST (R81). -/
def execSetContrast (s : State) : Host.Outcome State Fault Refusal := .next (executeKind 0x12 setContrastBody s)

/-- R86. -/
def setBlinkBody (payload : List Byte) (s : State) : Verdict :=
  if payload.length ≠ 1 then .fail .badSize []
  else if inRange 2 255 (byteAt payload 0) then
    doneWith { s with frames := { s.frames with blinkPeriod := byteAt payload 0, blinkCount := 0, blinkPhase := .shown } }
  else .fail .outOfRange []

/-- SET_BLINK (R86). -/
def execSetBlink (s : State) : Host.Outcome State Fault Refusal := .next (executeKind 0x13 setBlinkBody s)

end Sys2Proof.Machine
end

