-- ==== Sys2Proof/Machine/ChainRequests.lean ====
section
/-! DEFINITION. The requests on the staging memory, the descriptor pool and the chains (R98 to R104, R112 to R116, R121, R122). -/

namespace Sys2Proof.Machine

/-- R99: the staging range of a slot locks some offset of a run of `n` bytes from `start` on. -/
def slotLocks (start n : Nat) : PoolSlot → Bool
  | .held _ d =>
    match d.action with
    | .copy offset r _ _ => decide (start < offset.toNat + rectangleArea r) && decide (offset.toNat < start + n)
    | .fill .. => false
    | .attributes .. => false
    | .origin .. => false
    | .visibility .. => false
    | .mark .. => false
  | .free => false
  | .loaded _ => false

/-- R99: some Held COPY locks the run. -/
def stagingLocked (pool : Vector PoolSlot 32) (start n : Nat) : Bool := pool.toList.any fun slot => slotLocks start n slot

/-- R98. -/
def stageBody (payload : List Byte) (s : State) : Verdict :=
  let start := (wordAt payload 0).toNat
  let n := payload.length - 2
  if payload.length < 3 ∨ 60 < payload.length then .fail .badSize []
  else if Config.stagingBytes < start + n then .fail .outOfRange []
  else if stagingLocked s.chains.pool start n then .fail .locked []
  else doneWith { s with staging := memWriteRun s.staging start (payload.drop 2) }

/-- STAGE (R98). -/
def execStage (s : State) : Host.Outcome State Fault Refusal := .next (executeKind 0x28 stageBody s)

/-- R101: the slot is Held. -/
def PoolSlot.isHeld : PoolSlot → Bool
  | .held _ _ => true
  | .free => false
  | .loaded _ => false

/-- R102. -/
def loadDescriptorBody (payload : List Byte) (s : State) : Verdict :=
  if payload.length ≠ 12 then .fail .badSize []
  else
    match slotOf (byteAt payload 0), descriptorOf payload with
    | some i, some d => if s.chains.pool[i].isHeld then .fail .busy [] else doneWith (setPoolSlot i (.loaded d) s)
    | _, _ => .fail .outOfRange []

/-- LOAD_DESCRIPTOR (R102). -/
def execLoadDescriptor (s : State) : Host.Outcome State Fault Refusal := .next (executeKind 0x29 loadDescriptorBody s)

/-- R103. -/
def freeDescriptorBody (payload : List Byte) (s : State) : Verdict :=
  if payload.length ≠ 1 then .fail .badSize []
  else
    match slotOf (byteAt payload 0) with
    | some i => if s.chains.pool[i].isHeld then .fail .busy [] else doneWith (setPoolSlot i .free s)
    | none => .fail .outOfRange []

/-- FREE_DESCRIPTOR (R103). -/
def execFreeDescriptor (s : State) : Host.Outcome State Fault Refusal := .next (executeKind 0x2A freeDescriptorBody s)

/-- R104: the 13 result bytes of READ DESCRIPTOR. -/
def poolSlotBytes : PoolSlot → List Byte
  | .free => List.replicate 13 0
  | .loaded d => [1, 0] ++ descriptorBytes d
  | .held handle d => [2, handle] ++ descriptorBytes d

/-- R104. -/
def readDescriptorBody (payload : List Byte) (s : State) : Verdict :=
  if payload.length ≠ 1 then .fail .badSize []
  else
    match slotOf (byteAt payload 0) with
    | some i => doneReading s (poolSlotBytes s.chains.pool[i])
    | none => .fail .outOfRange []

/-- READ_DESCRIPTOR (R104). -/
def execReadDescriptor (s : State) : Host.Outcome State Fault Refusal := .next (executeKind 0x2E readDescriptorBody s)

/-- R114, R115, R116: a sound chain is held, receives its handle and joins the queue. -/
def queueChain (head : Fin 32) (slots : List (Fin 32)) (due : Word) (urgent : Bool) (s : State) : Verdict :=
  let handle := freshHandle s.chains.queue Config.chainPlaces (nextHandle s.chains.lastHandle)
  let record : PendingChain := { handle := handle, head := head, length := slots.length, due := due, urgent := urgent }
  let chains := { s.chains with
    pool := mapPoolSlots (holdSlot handle) slots s.chains.pool
    queue := enqueueChain record s.chains.queue
    lastHandle := handle }
  doneReading { s with chains := chains } ([handle, BitVec.ofNat 8 slots.length] ++ wordBytes due)

/-- R113: the stage-4 checks of SUBMIT CHAIN and, where they pass, its effect. -/
def submitSound (head : Fin 32) (due : Word) (urgent : Bool) (s : State) : Verdict :=
  if s.power.state = .doze then .fail .wrongState []
  else if Config.chainPlaces ≤ s.chains.queue.length then .fail .noRoom []
  else
    match walkChain s.chains.pool [] 31 head with
    | .failed position reason slot =>
      .fail .invalidChain [BitVec.ofNat 8 position, walkFaultByte reason, BitVec.ofNat 8 slot.val]
    | .sound slots => queueChain head slots due urgent s

/-- R112. -/
def submitChainBody (payload : List Byte) (s : State) : Verdict :=
  if payload.length ≠ 5 then .fail .badSize []
  else
    match slotOf (byteAt payload 0), dueFrameOf (byteAt payload 1) (wordAt payload 2) s.frames.counter with
    | some head, some due => submitSound head due ((byteAt payload 4).getLsbD 0) s
    | _, _ => .fail .outOfRange []

/-- SUBMIT_CHAIN (R112). -/
def execSubmitChain (s : State) : Host.Outcome State Fault Refusal := .next (executeKind 0x2B submitChainBody s)

/-- R121: a pending chain is cancelled. -/
def cancelPending (c : PendingChain) (s : State) : State :=
  { s with chains :=
      { s.chains with
        pool := mapPoolSlots returnToLoaded (chainSlots s.chains.pool 32 c.head) s.chains.pool
        queue := s.chains.queue.erase c
        outcomes := recordOutcome { handle := c.handle, result := .cancelled, skipped := 0 } s.chains.outcomes } }

/-- R121. -/
def cancelChainBody (payload : List Byte) (s : State) : Verdict :=
  if payload.length ≠ 1 then .fail .badSize []
  else if byteAt payload 0 = 0 then .fail .outOfRange []
  else
    match s.chains.queue.find? fun c => c.handle == byteAt payload 0 with
    | some c => doneReading (cancelPending c s) [BitVec.ofNat 8 c.length]
    | none => .fail .unknownHandle []

/-- CANCEL_CHAIN (R121). -/
def execCancelChain (s : State) : Host.Outcome State Fault Refusal := .next (executeKind 0x2C cancelChainBody s)

/-- The slot is Free. -/
def PoolSlot.isFree : PoolSlot → Bool
  | .free => true
  | .loaded _ => false
  | .held _ _ => false

/-- The slot is Loaded. -/
def PoolSlot.isLoaded : PoolSlot → Bool
  | .loaded _ => true
  | .free => false
  | .held _ _ => false

/-- R122: how many slots of the pool satisfy a test. -/
def slotCount (f : PoolSlot → Bool) (s : State) : Nat := s.chains.pool.toList.countP f

/-- R122: the 44 result bytes of CHAIN STATUS. -/
def chainStatusBytes (s : State) : List Byte :=
  [BitVec.ofNat 8 s.chains.queue.length] ++ padRecords 4 6 (s.chains.queue.map pendingChainBytes) ++
    [BitVec.ofNat 8 s.chains.outcomes.length] ++ padRecords 4 3 (s.chains.outcomes.map chainOutcomeBytes) ++
    [s.chains.lastMark, BitVec.ofNat 8 (slotCount PoolSlot.isFree s), BitVec.ofNat 8 (slotCount PoolSlot.isLoaded s),
     BitVec.ofNat 8 (slotCount PoolSlot.isHeld s)] ++ wordBytes s.frames.counter

/-- R122. -/
def chainStatusBody (payload : List Byte) (s : State) : Verdict :=
  if payload.length ≠ 0 then .fail .badSize [] else doneReading s (chainStatusBytes s)

/-- CHAIN_STATUS (R122). -/
def execChainStatus (s : State) : Host.Outcome State Fault Refusal := .next (executeKind 0x2D chainStatusBody s)

end Sys2Proof.Machine
end

