-- ==== Sys2Proof/Machine/KeyRequests.lean ====
section
/-! DEFINITION. The key requests (R127, R129, R145, R153, R154) and the timebase requests (R165, R166, R168). -/

namespace Sys2Proof.Machine

/-- R129: the scan configuration replaced. -/
def setScanConfig (c : ScanConfig) (s : State) : State :=
  { s with scanner := { s.scanner with config := c, raw := 0, passTimer := c.period } }

/-- R129, R143: the effect of CONFIGURE SCAN; in Doze wake scanning re-arms its lines. -/
def configureScan (c : ScanConfig) (s : State) : State :=
  let t := setScanConfig c (forcedRelease s)
  if wakeScanning t then armLines t else t

/-- R129. -/
def configureScanBody (payload : List Byte) (s : State) : Verdict :=
  if payload.length ≠ 6 then .fail .badSize []
  else
    match scanConfigOf payload with
    | some c => doneWith (configureScan c s)
    | none => .fail .outOfRange []

/-- CONFIGURE_SCAN (R129). -/
def execConfigureScan (s : State) : Host.Outcome State Fault Refusal := .next (executeKind 0x30 configureScanBody s)

/-- The key table with one record replaced. -/
def setKeyRecord (k : Fin 64) (r : KeyRecord) (s : State) : State :=
  { s with scanner := { s.scanner with table := s.scanner.table.set k r } }

/-- R127: the key becomes disabled: a reported key receives a FORCED_RELEASE, any key becomes Idle. -/
def disableKey (k : Fin 64) (s : State) : State :=
  if s.scanner.states[k].reported then
    endRollover (clearOwnerIf k (releaseReported .forcedRelease k s.time.ticks s))
  else setKeyState k .idle s

/-- R141: the repeat timer stops when the owner's Repeats flag is cleared. -/
def stopRepeatIf (k : Fin 64) (r : KeyRecord) (s : State) : State :=
  if s.scanner.owner = some k ∧ r.repeats = false then { s with scanner := { s.scanner with repeatTimer := none } } else s

/-- R127: the effect of SET KEY on the key's state, by its Enabled flag before and after. -/
def changeEnabled (k : Fin 64) (before after : Bool) (s : State) : State :=
  match before, after with
  | true, true => s
  | true, false => disableKey k s
  | false, true => setKeyState k .idle s
  | false, false => s

/-- R127: the effect of SET KEY. -/
def setKey (k : Fin 64) (r : KeyRecord) (s : State) : State :=
  stopRepeatIf k r (changeEnabled k s.scanner.table[k].enabled r.enabled (setKeyRecord k r s))

/-- R127. -/
def setKeyBody (payload : List Byte) (s : State) : Verdict :=
  if payload.length ≠ 2 then .fail .badSize []
  else
    match keyOf (byteAt payload 0) with
    | some k => doneWith (setKey k (keyRecordOf (byteAt payload 1)) s)
    | none => .fail .outOfRange []

/-- SET_KEY (R127). -/
def execSetKey (s : State) : Host.Outcome State Fault Refusal := .next (executeKind 0x31 setKeyBody s)

/-- R153: the effect and the result bytes of taking `m` records. -/
def takeEvents (m : Nat) (s : State) : Verdict :=
  doneReading { s with keys := { s.keys with events := s.keys.events.drop m } }
    ([BitVec.ofNat 8 m, BitVec.ofNat 8 (s.keys.events.length - m)] ++ (s.keys.events.take m).flatMap eventBytes)

/-- R153. -/
def takeKeysBody (payload : List Byte) (s : State) : Verdict :=
  if payload.length ≠ 1 then .fail .badSize []
  else if inRange 1 12 (byteAt payload 0) then takeEvents (min (byteAt payload 0).toNat s.keys.events.length) s
  else .fail .outOfRange []

/-- TAKE_KEYS (R153). -/
def execTakeKeys (s : State) : Host.Outcome State Fault Refusal := .next (executeKind 0x32 takeKeysBody s)

/-- R154. -/
def flushKeysBody (payload : List Byte) (s : State) : Verdict :=
  if payload.length ≠ 0 then .fail .badSize []
  else doneReading { s with keys := defaultKeyQueue } [BitVec.ofNat 8 s.keys.events.length, s.keys.dropped]

/-- FLUSH_KEYS (R154). -/
def execFlushKeys (s : State) : Host.Outcome State Fault Refusal := .next (executeKind 0x33 flushKeysBody s)

/-- R145: the reported keys. -/
def reportedKeys (s : State) : KeySet :=
  keysWhere fun k =>
    match s.scanner.states[k]? with
    | some st => st.reported
    | none => false

/-- R145: the repeat owner's byte. -/
def ownerByte : Option (Fin 64) → Byte
  | none => 0xFF
  | some k => keyByte k

/-- R145: the 19 result bytes of GET KEY STATES. -/
def keyStateBytes (s : State) : List Byte :=
  keySetBytes (reportedKeys s) ++ keySetBytes s.scanner.raw ++
    [BitVec.ofNat 8 (downCount s), ownerByte s.scanner.owner, flagBit s.scanner.ghost 0 ||| flagBit s.scanner.rollover 1]

/-- R145. -/
def getKeyStatesBody (payload : List Byte) (s : State) : Verdict :=
  if payload.length ≠ 0 then .fail .badSize [] else doneReading s (keyStateBytes s)

/-- GET_KEY_STATES (R145). -/
def execGetKeyStates (s : State) : Host.Outcome State Fault Refusal := .next (executeKind 0x34 getKeyStatesBody s)

/-- R165: the 12 result bytes of READ TIME. -/
def timeBytes (s : State) : List Byte :=
  wordBytes s.time.ticks ++ wordBytes s.frames.counter ++ [alarmModeByte s.time.alarmMode] ++ wordBytes s.time.alarmCount ++
    [s.time.watchPeriod, fallbackActionByte s.time.watchAction, linkStateByte s.time.link] ++ wordBytes s.time.watchCount

/-- R165. -/
def readTimeBody (payload : List Byte) (s : State) : Verdict :=
  if payload.length ≠ 0 then .fail .badSize [] else doneReading s (timeBytes s)

/-- READ_TIME (R165). -/
def execReadTime (s : State) : Host.Outcome State Fault Refusal := .next (executeKind 0x38 readTimeBody s)

/-- R166: the timebase with the alarm set: the count is the period, and both are 0 when the mode is Off. -/
def withAlarm (mode : AlarmMode) (period : Word) (wakes : Bool) (t : Timebase) : Timebase :=
  match mode with
  | .off => { t with alarmMode := .off, alarmPeriod := 0, alarmWake := wakes, alarmCount := 0 }
  | .oneShot => { t with alarmMode := .oneShot, alarmPeriod := period, alarmWake := wakes, alarmCount := period }
  | .periodic => { t with alarmMode := .periodic, alarmPeriod := period, alarmWake := wakes, alarmCount := period }

/-- R166: a period of 0 is out of range but when the mode is Off. -/
def setAlarmBody (payload : List Byte) (s : State) : Verdict :=
  if payload.length ≠ 4 then .fail .badSize []
  else
    match alarmModeOf (byteAt payload 0) with
    | none => .fail .outOfRange []
    | some mode =>
      if mode ≠ .off ∧ wordAt payload 1 = 0 then .fail .outOfRange []
      else doneWith { s with time := withAlarm mode (wordAt payload 1) ((byteAt payload 3).getLsbD 0) s.time }

/-- SET_ALARM (R166). -/
def execSetAlarm (s : State) : Host.Outcome State Fault Refusal := .next (executeKind 0x39 setAlarmBody s)

/-- R168: the watch is set and restarted. -/
def setWatch (period : Byte) (action : FallbackAction) (s : State) : State :=
  loadWatch { s with time := { s.time with watchPeriod := period, watchAction := action, watchCount := 0 } }

/-- R168. -/
def setLinkWatchBody (payload : List Byte) (s : State) : Verdict :=
  if payload.length ≠ 2 then .fail .badSize []
  else
    match inRange 0 64 (byteAt payload 0), fallbackActionOf (byteAt payload 1) with
    | true, some action => doneWith (setWatch (byteAt payload 0) action s)
    | _, _ => .fail .outOfRange []

/-- SET_LINK_WATCH (R168). -/
def execSetLinkWatch (s : State) : Host.Outcome State Fault Refusal := .next (executeKind 0x3A setLinkWatchBody s)

end Sys2Proof.Machine
end

