-- ==== Sys2Proof/Machine/Dispatch.lean ====
section
/-! DEFINITION. Which meaning each command has. -/

namespace Sys2Proof.Machine

/-- The effect of a command on everything but the queue of waiting commands. -/
def exec (i : Instr) (s : State) : Host.Outcome State Fault Refusal :=
  match i with
  | .linkDataWrite value => Sys2Proof.Machine.execLinkDataWrite value s
  | .linkDataRead => Sys2Proof.Machine.execLinkDataRead s
  | .linkStatusRead => Sys2Proof.Machine.execLinkStatusRead s
  | .resync value => Sys2Proof.Machine.execResync value s
  | .fullReset value => Sys2Proof.Machine.execFullReset value s
  | .noticeAcknowledge address value => Sys2Proof.Machine.execNoticeAcknowledge address value s
  | .noticeMask address value => Sys2Proof.Machine.execNoticeMask address value s
  | .ignoredPortWrite address value => Sys2Proof.Machine.execIgnoredPortWrite address value s
  | .byteTaken => Sys2Proof.Machine.execByteTaken s
  | .gapTimeout => Sys2Proof.Machine.execGapTimeout s
  | .huntingEnd => Sys2Proof.Machine.execHuntingEnd s
  | .posting => Sys2Proof.Machine.execPosting s
  | .sleepEntry => Sys2Proof.Machine.execSleepEntry s
  | .unknownKindRequest => Sys2Proof.Machine.execUnknownKindRequest s
  | .identify => Sys2Proof.Machine.execIdentify s
  | .echo => Sys2Proof.Machine.execEcho s
  | .getStatus => Sys2Proof.Machine.execGetStatus s
  | .clearCounters => Sys2Proof.Machine.execClearCounters s
  | .restart => Sys2Proof.Machine.execRestart s
  | .configurePanel => Sys2Proof.Machine.execConfigurePanel s
  | .setDisplayMode => Sys2Proof.Machine.execSetDisplayMode s
  | .setContrast => Sys2Proof.Machine.execSetContrast s
  | .setBlink => Sys2Proof.Machine.execSetBlink s
  | .writeCanvas => Sys2Proof.Machine.execWriteCanvas s
  | .readCanvas => Sys2Proof.Machine.execReadCanvas s
  | .writeAttributes => Sys2Proof.Machine.execWriteAttributes s
  | .readAttributes => Sys2Proof.Machine.execReadAttributes s
  | .setCursor => Sys2Proof.Machine.execSetCursor s
  | .writeAtCursor => Sys2Proof.Machine.execWriteAtCursor s
  | .clearCanvas => Sys2Proof.Machine.execClearCanvas s
  | .setView => Sys2Proof.Machine.execSetView s
  | .getView => Sys2Proof.Machine.execGetView s
  | .setBackdrop => Sys2Proof.Machine.execSetBackdrop s
  | .selectViews => Sys2Proof.Machine.execSelectViews s
  | .stage => Sys2Proof.Machine.execStage s
  | .loadDescriptor => Sys2Proof.Machine.execLoadDescriptor s
  | .freeDescriptor => Sys2Proof.Machine.execFreeDescriptor s
  | .readDescriptor => Sys2Proof.Machine.execReadDescriptor s
  | .submitChain => Sys2Proof.Machine.execSubmitChain s
  | .cancelChain => Sys2Proof.Machine.execCancelChain s
  | .chainStatus => Sys2Proof.Machine.execChainStatus s
  | .configureScan => Sys2Proof.Machine.execConfigureScan s
  | .setKey => Sys2Proof.Machine.execSetKey s
  | .takeKeys => Sys2Proof.Machine.execTakeKeys s
  | .flushKeys => Sys2Proof.Machine.execFlushKeys s
  | .getKeyStates => Sys2Proof.Machine.execGetKeyStates s
  | .readTime => Sys2Proof.Machine.execReadTime s
  | .setAlarm => Sys2Proof.Machine.execSetAlarm s
  | .setLinkWatch => Sys2Proof.Machine.execSetLinkWatch s
  | .enterDoze => Sys2Proof.Machine.execEnterDoze s
  | .enterSleep => Sys2Proof.Machine.execEnterSleep s
  | .wake => Sys2Proof.Machine.execWake s
  | .frameBoundary waited => Sys2Proof.Machine.execFrameBoundary waited s
  | .resumingBoundary => Sys2Proof.Machine.execResumingBoundary s
  | .rowScanOut => Sys2Proof.Machine.execRowScanOut s
  | .tick => Sys2Proof.Machine.execTick s
  | .scanPass longGhosts => Sys2Proof.Machine.execScanPass longGhosts s
  | .repeatEvent longGhosts => Sys2Proof.Machine.execRepeatEvent longGhosts s
  | .alarmExpiry => Sys2Proof.Machine.execAlarmExpiry s
  | .linkWatchExpiry => Sys2Proof.Machine.execLinkWatchExpiry s
  | .wakeStep => Sys2Proof.Machine.execWakeStep s
  | .endOfStarting => Sys2Proof.Machine.execEndOfStarting s
  | .powerOnReset => Sys2Proof.Machine.execPowerOnReset s
  | .rstPinReset low => Sys2Proof.Machine.execRstPinReset low s
  | .watchedLineChange key closed => Sys2Proof.Machine.execWatchedLineChange key closed s

end Sys2Proof.Machine
end

