-- ==== Sys2Proof/Machine/Order.lean ====
section
/-! DEFINITION. Which of two steps that fall due at the same moment is taken first (R1, R7, R31, R88, R131, R159, R164, R179). The queue
of waiting commands gives the order in which the steps are taken; a queue that respects the part's rules is one in which steps that fell due
together stand in the order given here. `step` does not enforce it (log entry 8). -/

namespace Sys2Proof.Machine

/-- The kinds of atomic step of R1; `noStep`: a key contact that moves, which is what the
key lines show, and the entry to Sleep, which is made within another step (R177). -/
inductive StepClass where
  | hostAccess | byteTaken | execution | posting | boundary | rowScan | scanPass | tick | reset | endOfStarting | wakeStep | noStep
  deriving DecidableEq, Repr

/-- The atomic step that a command is, or is a case of. R1 orders the RST pin reset that enters Starting and says nothing of the release of RST;
that the release is ordered as that reset is, is the model's choice (log entry 32). -/
def stepClass : Instr → StepClass
  | .linkDataWrite _ | .linkDataRead | .linkStatusRead | .resync _ | .fullReset _ | .noticeAcknowledge _ _ | .noticeMask _ _ |
    .ignoredPortWrite _ _ => .hostAccess
  | .byteTaken => .byteTaken
  | .posting => .posting
  | .unknownKindRequest | .identify | .echo | .getStatus | .clearCounters | .restart |
    .configurePanel | .setDisplayMode | .setContrast | .setBlink | .writeCanvas | .readCanvas |
    .writeAttributes | .readAttributes | .setCursor | .writeAtCursor | .clearCanvas | .setView | .getView |
    .setBackdrop | .selectViews | .stage | .loadDescriptor | .freeDescriptor | .readDescriptor |
    .submitChain | .cancelChain | .chainStatus | .configureScan | .setKey | .takeKeys | .flushKeys |
    .getKeyStates | .readTime | .setAlarm | .setLinkWatch | .enterDoze | .enterSleep | .wake => .execution
  | .frameBoundary _ | .resumingBoundary => .boundary
  | .rowScanOut => .rowScan
  | .tick | .gapTimeout | .huntingEnd | .alarmExpiry | .linkWatchExpiry => .tick
  | .scanPass _ | .repeatEvent _ => .scanPass
  | .wakeStep => .wakeStep
  | .endOfStarting => .endOfStarting
  | .powerOnReset | .rstPinReset _ => .reset
  | .watchedLineChange _ _ | .sleepEntry => .noStep

/-- R1: a host access is taken before every other step; a power-on or RST pin reset after every other step; the end of Starting and a wake
step after a tick. R7: a byte taken before a tick. R88: a tick and an overdue row before a boundary; an execution, a byte taken, a
posting and a scan pass after it. R131: a scan pass after the tick that made it due. R31: an execution after any other step. -/
def takenBefore : StepClass → StepClass → Bool
  | .noStep, _ => false
  | _, .noStep => false
  | .hostAccess, other => other != .hostAccess
  | _, .hostAccess => false
  | .reset, _ => false
  | _, .reset => true
  | .execution, _ => false
  | _, .execution => true
  | .byteTaken, .tick => true
  | .tick, .boundary => true
  | .tick, .scanPass => true
  | .tick, .endOfStarting => true
  | .tick, .wakeStep => true
  | .rowScan, .boundary => true
  | .boundary, .byteTaken => true
  | .boundary, .posting => true
  | .boundary, .scanPass => true
  | _, _ => false

end Sys2Proof.Machine
end

