-- ==== Sys2Proof/Safety.lean ====
section
/-! DEFINITION. What counts as a good state of the part, and the terms in which claims about a command are written: a request that is
due, the REPLY that answers it, a settled state, and one invariant for each kind of state. -/

namespace Sys2Proof.Machine

/-! ## A request that is due and its answer -/

/-- R30: an execution step is due for a Good request of this Kind, Tag and payload. -/
structure RequestDue (kind tag : Byte) (payload : List Byte) (s : State) : Prop where
  idle : s.requests.engine = .idle
  runs : s.power.state = .run ∨ s.power.state = .doze
  front : ∃ check rest,
    s.requests.slots = { stage := .waitingGood, stored := kind :: tag :: (payload ++ [check]) } :: rest

/-- R11, R30: the queue and the engine at the end of an execution step: the front slot and the engine in Replying, the engine holding the
REPLY with this outcome code and these result bytes, and what its posting will do. -/
def replyHeld (kind tag code : Byte) (result : List Byte) (effect : PostEffect) (q : Requests) : Requests :=
  { slots := setFrontStage .replying q.slots
    engine := .replying { bytes := parcel 0x80 tag (kind :: code :: result), effect := effect } }

/-- The state after an execution step that changed nothing beyond the queue and the engine. -/
def answeredOnly (kind tag code : Byte) (result : List Byte) (s : State) : State :=
  { s with requests := replyHeld kind tag code result .nothing s.requests }

/-- R36, stage 2: a request that is due with a payload of a size that it does not take is answered BAD_SIZE, and nothing else changes. -/
def answersBadSize (c : Instr) (kind : Byte) (taken : Nat → Prop) : Prop :=
  ∀ (tag : Byte) (payload : List Byte) (s : State), RequestDue kind tag payload s → ¬ taken payload.length →
    exec c s = .next (answeredOnly kind tag 2 [] s)

/-- Section 2.4: the code of the request that a command executes; none for the other commands and for UNKNOWN_KIND_REQUEST. -/
def requestCode : Instr → Option Byte
  | .identify => some 0x01
  | .echo => some 0x02
  | .getStatus => some 0x03
  | .clearCounters => some 0x04
  | .restart => some 0x05
  | .configurePanel => some 0x10
  | .setDisplayMode => some 0x11
  | .setContrast => some 0x12
  | .setBlink => some 0x13
  | .writeCanvas => some 0x18
  | .readCanvas => some 0x19
  | .writeAttributes => some 0x1A
  | .readAttributes => some 0x1B
  | .setCursor => some 0x1C
  | .writeAtCursor => some 0x1D
  | .clearCanvas => some 0x1E
  | .setView => some 0x20
  | .getView => some 0x21
  | .setBackdrop => some 0x22
  | .selectViews => some 0x23
  | .stage => some 0x28
  | .loadDescriptor => some 0x29
  | .freeDescriptor => some 0x2A
  | .submitChain => some 0x2B
  | .cancelChain => some 0x2C
  | .chainStatus => some 0x2D
  | .readDescriptor => some 0x2E
  | .configureScan => some 0x30
  | .setKey => some 0x31
  | .takeKeys => some 0x32
  | .flushKeys => some 0x33
  | .getKeyStates => some 0x34
  | .readTime => some 0x38
  | .setAlarm => some 0x39
  | .setLinkWatch => some 0x3A
  | .enterDoze => some 0x3B
  | .enterSleep => some 0x3C
  | .wake => some 0x3D
  | .linkDataWrite _ | .linkDataRead | .linkStatusRead | .resync _ | .fullReset _ | .noticeAcknowledge _ _ | .noticeMask _ _ |
    .ignoredPortWrite _ _ | .byteTaken | .gapTimeout | .huntingEnd | .posting | .sleepEntry | .unknownKindRequest |
    .frameBoundary _ | .resumingBoundary | .rowScanOut | .tick | .scanPass _ | .repeatEvent _ | .alarmExpiry |
    .linkWatchExpiry | .wakeStep | .endOfStarting | .powerOnReset | .rstPinReset _ | .watchedLineChange _ _ => none

/-! ## A settled state (R32, R177) -/

/-- R32: an Idle engine that runs stands before a Waiting, Rejected slot. -/
def rejectionDue (s : State) : Bool :=
  s.requests.engine == .idle && engineRuns s.power.state && (frontRejection s).isSome

/-- R32, R177: nothing is left for the end of a step to do: no REJECT to build and no Sleep to enter. -/
def Settled (s : State) : Prop := rejectionDue s = false ∧ sleepReady s = false

/-! ## The addressed memories and the descriptors (R45, R46, R97, R105, R106) -/

/-- R105: a rectangle that lies inside the canvas. -/
def Rectangle.legal (r : Rectangle) : Prop :=
  1 ≤ r.width.toNat ∧ 1 ≤ r.height.toNat ∧ r.column.toNat + r.width.toNat ≤ 32 ∧ r.row.toNat + r.height.toNat ≤ 128

/-- R105 to R111: an action that LOAD DESCRIPTOR accepts. -/
def Action.legal : Action → Prop
  | .copy offset r _ _ => r.legal ∧ offset.toNat + rectangleArea r ≤ Config.stagingBytes
  | .fill r _ _ _ => r.legal
  | .attributes r _ _ => r.legal
  | .origin _ _ _ y => y.toNat ≤ 127
  | .visibility .. => True
  | .mark _ => True

/-- R100: every descriptor of the pool is one that LOAD DESCRIPTOR accepts. -/
def PoolLegal (pool : Vector PoolSlot 32) : Prop :=
  ∀ (i : Fin 32) (d : Descriptor), slotRecord pool[i] = some d → d.action.legal

/-- R45, R46, R97: each memory in its canonical form, inside its size, and with attribute bytes of three flags. -/
structure MemoriesGood (s : State) : Prop where
  pixels : s.canvas.pixels.wf = true ∧ s.canvas.pixels.within Config.canvasCells = true
  attributes : s.canvas.attributes.wf = true ∧ s.canvas.attributes.within Config.canvasCells = true
  flags : ∀ cell ∈ s.canvas.attributes, cell.2.toNat < 8
  staging : s.staging.wf = true ∧ s.staging.within Config.stagingBytes = true
  pool : PoolLegal s.chains.pool

/-- R105: the checks of a rectangle given by its four bytes. -/
def rectangleFits (column row width height : Byte) : Prop :=
  1 ≤ width.toNat ∧ 1 ≤ height.toNat ∧ column.toNat + width.toNat ≤ 32 ∧ row.toNat + height.toNat ≤ 128

/-- R102, R105 to R111: the action codes and the eight parameter bytes that LOAD DESCRIPTOR accepts. -/
def loadable (code : Byte) (q : List Byte) : Prop :=
  let b := fun i => q.getD i 0
  match code.toNat with
  | 1 => rectangleFits (b 2) (b 3) (b 4) (b 5) ∧ (b 6).toNat ≤ 1 ∧
      (b 1).toNat * 256 + (b 0).toNat + (b 4).toNat * (b 5).toNat ≤ 1024
  | 2 => rectangleFits (b 0) (b 1) (b 2) (b 3) ∧ (b 5).toNat ≤ 1
  | 3 => rectangleFits (b 0) (b 1) (b 2) (b 3)
  | 4 => (b 0).toNat ≤ 1 ∧ (b 1).toNat ≤ 3 ∧ (b 3).toNat ≤ 127
  | 5 => (b 0).toNat ≤ 1 ∧ (b 1).toNat ≤ 3 ∧ (b 2).toNat ≤ 1
  | 6 => True
  | _ => False

/-- R46, R102, R104: the parameter bytes as they are stored and read back: unused bytes and ignored attribute bits are 0. -/
def storedParameters (code : Byte) (q : List Byte) : List Byte :=
  let b := fun i => q.getD i 0
  match code.toNat with
  | 1 => [b 0, b 1, b 2, b 3, b 4, b 5, b 6, b 7 &&& 0x07]
  | 2 => [b 0, b 1, b 2, b 3, b 4, b 5, b 6 &&& 0x07, 0]
  | 3 => [b 0, b 1, b 2, b 3, b 4 &&& 0x07, b 5 &&& 0x07, 0, 0]
  | 4 => [b 0, b 1, b 2, b 3, 0, 0, 0, 0]
  | 5 => [b 0, b 1, b 2, 0, 0, 0, 0, 0]
  | 6 => [b 0, 0, 0, 0, 0, 0, 0, 0]
  | _ => []

/-- R57: the cell that is `k` steps on from the cursor, modulo 4096. -/
def steppedCell (c : Canvas) (k : Nat) : Nat :=
  match c.step with
  | .forward => (c.cursor.toNat + k) % 4096
  | .backward => (c.cursor.toNat + (4096 - k)) % 4096

/-! ## Views (R60, R62, R63, R76) -/

/-- R63, R76: a scroll counter is below its rate, or 0 where the rate is 0. -/
def countBelow (count rate : Byte) : Prop := if rate = 0 then count = 0 else count < rate

/-- R63: a legal record and two counters below their rates. -/
def View.good (v : View) : Prop :=
  v.record.legal = true ∧ countBelow v.verticalCount v.record.verticalRate ∧ countBelow v.horizontalCount v.record.horizontalRate

/-- R63: every view of both tables is good. -/
def ViewsGood (s : State) : Prop := ∀ (t : ViewTable) (i : Fin 4), View.good (s.views.table t)[i]

/-! ## Panel, blink and scan configuration (R79, R85, R128) -/

/-- R79, R85, R128: every configured number lies in its range. -/
structure RangesGood (s : State) : Prop where
  columns : countOfEights 32 160 s.panel.columns = true
  rows : countOfEights 16 64 s.panel.rows = true
  rate : inRange 40 125 s.panel.frameRate = true
  contrast : inRange 0 31 s.panel.contrast = true
  blinkPeriod : 2 ≤ s.frames.blinkPeriod.toNat
  blinkCount : s.frames.blinkCount < s.frames.blinkPeriod
  drives : 1 ≤ s.scanner.config.drives ∧ s.scanner.config.drives ≤ 10
  senses : 1 ≤ s.scanner.config.senses ∧ s.scanner.config.senses ≤ 6
  period : 2 ≤ s.scanner.config.period ∧ s.scanner.config.period ≤ 32
  settle : 1 ≤ s.scanner.config.settle ∧ s.scanner.config.settle ≤ 7
  repeatDelay : 10 ≤ s.scanner.config.repeatDelay ∧ s.scanner.config.repeatDelay ≤ 255
  repeatInterval : 2 ≤ s.scanner.config.repeatInterval ∧ s.scanner.config.repeatInterval ≤ 255
  passTimer : s.scanner.passTimer ≤ 32

/-! ## The key event queue (R148, R150) -/

/-- R138, R148, R150: at most 24 records, at most eight reported keys, and a free place for every outstanding release. -/
structure ReservationKept (s : State) : Prop where
  places : s.keys.events.length ≤ Config.eventPlaces
  reported : downCount s ≤ Config.keysDownMax
  reserved : downCount s ≤ freePlaces s

/-- R130: the FORCED_RELEASE records of a forced release: one for each reported key, in ascending key number. -/
def forcedReleases (s : State) : List KeyEvent :=
  (List.finRange 64).filterMap fun k =>
    if s.scanner.states[k].reported then some { kind := .forcedRelease, key := keyByte k, time := s.time.ticks } else none

/-! ## The timebase (R166, R167, R168, R169) -/

/-- R166, R168, R169: the alarm count runs exactly while the alarm is set, and the watch count exactly while the watch runs. -/
structure TimebaseGood (s : State) : Prop where
  alarmOff : s.time.alarmMode = .off → s.time.alarmCount = 0 ∧ s.time.alarmPeriod = 0
  alarmOn : s.time.alarmMode ≠ .off → s.time.alarmCount ≠ 0 ∧ s.time.alarmCount ≤ s.time.alarmPeriod
  watchPeriod : s.time.watchPeriod.toNat ≤ 64
  watchOn : watchRuns s.time = true → s.time.watchCount ≠ 0 ∧ s.time.watchCount.toNat ≤ s.time.watchPeriod.toNat * 100
  watchOff : watchRuns s.time = false → s.time.watchCount = 0

/-! ## The link, the queue and the engine (R7, R19, R20, R28, R34, R35) -/

/-- R13, R17, R18: the counts of the assembler's state. -/
def Assembler.good : Assembler → Prop
  | .awaitLength _ => True
  | .collecting toCome _ _ gap => 1 ≤ toCome ∧ toCome ≤ Config.maxLength ∧ 1 ≤ gap ∧ gap ≤ Config.gapTicks
  | .hunting gap => 1 ≤ gap ∧ gap ≤ Config.gapTicks

/-- R28: how the slots stand in the queue, and how the engine and the assembler go with them (R13, R30, R34, R35). -/
structure QueueGood (s : State) : Prop where
  few : s.requests.slots.length ≤ Config.requestSlots
  noneExecuting : s.requests.engine ≠ .executing ∧ ∀ slot ∈ s.requests.slots, slot.stage ≠ .executing
  fillingLast : ∀ slot ∈ s.requests.slots.dropLast, slot.stage ≠ .filling
  replyingFirst : ∀ slot ∈ s.requests.slots.tail, slot.stage ≠ .replying
  replying : (∃ a, s.requests.engine = .replying a) ↔ ∃ front rest, s.requests.slots = front :: rest ∧ front.stage = .replying
  collecting : assemblerCode s.link.assembler = 1 ↔ ∃ slot ∈ s.requests.slots, slot.stage = .filling
  suspended : s.requests.engine = .suspended ↔ s.power.state = .sleepPending ∨ s.power.state = .sleep

/-- R10, R11, R12, R33, R175, R177: a held answer is a whole parcel that the ring can hold; one that will leave Run is held in Run. -/
def Answer.good (power : PowerState) (a : Answer) : Prop :=
  6 ≤ a.bytes.length ∧ a.bytes.length ≤ 64 ∧ byteSum a.bytes = 0 ∧
    (a.effect = .enterDoze ∨ a.effect = .enterSleep → power = .run)

/-- R6, R19, R20, R26, R32, R172, R174, R177: the port and the power state go together. -/
structure LinkGood (s : State) : Prop where
  queue : QueueGood s
  ring : s.link.ring.length ≤ Config.ringBytes
  assembler : s.link.assembler.good
  answer : ∀ a, s.requests.engine = .replying a → a.good s.power.state
  settled : Settled s
  starting : s.power.state = .starting →
    s.link.holding = none ∧ s.link.ring = [] ∧ s.link.assembler = .awaitLength false ∧ s.requests.slots = []
  asleep : s.power.state = .sleep → s.link.ring = [] ∧ assemblerCode s.link.assembler = 0
  rst : s.pins.rstLow = true → s.power.state = .starting

/-! ## Chains and the power states (R100, R114 to R116, R120, R123) -/

/-- R116: the urgent records come first. -/
def urgentFirst (queue : List PendingChain) : Prop := queue.Pairwise fun a b => b.urgent = true → a.urgent = true

/-- R115, R116, R120: the pending chain queue and the recent-outcome list. -/
structure ChainQueueGood (s : State) : Prop where
  pending : s.chains.queue.length ≤ Config.chainPlaces
  outcomes : s.chains.outcomes.length ≤ Config.outcomePlaces
  handles : (s.chains.queue.map fun c => c.handle).Nodup
  nonzero : ∀ c ∈ s.chains.queue, c.handle ≠ 0
  urgent : urgentFirst s.chains.queue

/-- R123: a chain is pending only in Run, and no held answer that will leave Run stands beside one. -/
structure ChainsAwake (s : State) : Prop where
  run : s.chains.queue ≠ [] → s.power.state = .run
  answer : ∀ a, s.requests.engine = .replying a → a.effect = .enterDoze ∨ a.effect = .enterSleep →
    s.chains.queue = [] ∧ s.power.state = .run

/-- R113: the slots are Loaded and each names the next of the list as its Next. -/
def loadedPath (pool : Vector PoolSlot 32) : List (Fin 32) → Prop
  | [] => True
  | [i] => ∃ d, pool[i] = .loaded d
  | i :: j :: rest => (∃ d, pool[i] = .loaded d ∧ d.next = some j) ∧ loadedPath pool (j :: rest)

/-- R113: the last slot of the list is Loaded and has this Next. -/
def pathNext (pool : Vector PoolSlot 32) (path : List (Fin 32)) (next : Option (Fin 32)) : Prop :=
  ∃ i d, path.getLast? = some i ∧ pool[i] = .loaded d ∧ d.next = next

/-- R115: the candidates for a new handle, in the order in which they are tried. -/
def handleCandidate (last : Byte) (j : Nat) : Byte := BitVec.ofNat 8 ((last.toNat + j) % 255 + 1)

/-- R120: the recent-outcome list with a record more. -/
def outcomesWith (o : ChainOutcome) (outcomes : List ChainOutcome) : List ChainOutcome :=
  if outcomes.length = 4 then outcomes.tail ++ [o] else outcomes ++ [o]

/-- R100: a pending chain holds exactly the slots that its walk visits, as many as its record says. -/
def chainHolds (pool : Vector PoolSlot 32) (c : PendingChain) : Prop :=
  (chainSlots pool 32 c.head).length = c.length ∧ (chainSlots pool 32 c.head).Nodup ∧
    ∀ i : Fin 32, i ∈ chainSlots pool 32 c.head ↔ ∃ d, pool[i] = .held c.handle d

/-- R100: every Held slot belongs to exactly one pending chain, and every pending chain holds its slots. -/
structure HoldsGood (s : State) : Prop where
  queue : ChainQueueGood s
  chains : ∀ c ∈ s.chains.queue, chainHolds s.chains.pool c
  slots : ∀ (i : Fin 32) (h : Byte) (d : Descriptor), s.chains.pool[i] = .held h d → ∃ c ∈ s.chains.queue, c.handle = h

/-! ## What comes about at the end of a step or inside one (R32, R130, R142, R164, R177, R180) -/

/-- R94, R130, R142, R175, R177: the part as the entry to Doze or to Sleep leaves it: the power state, a FORCED_RELEASE for each reported
key, every key Idle, the episodes and the repeat ended, the watched lines that read open armed, no frame open, every output grounded. -/
def lowered (p : PowerState) (s : State) : State :=
  { s with
    power := { s.power with state := p }
    keys := { s.keys with events := s.keys.events ++ forcedReleases s }
    scanner := { s.scanner with
      states := Vector.replicate 64 .idle
      raw := 0
      passesDue := 0
      owner := none
      repeatTimer := none
      ghost := false
      rollover := false
      armed := openLines s.scanner.config s.pins.contacts }
    frames := { s.frames with row := none, resuming := false }
    panel := { s.panel with drive := .grounded } }

/-- R177: Sleep is entered where the part is in Sleep-Pending, the ring is empty, the assembler is in Await Length and no byte is held. -/
def sleptIfQuiet (s : State) : State :=
  if s.power.state = .sleepPending ∧ s.link.ring = [] ∧ assemblerCode s.link.assembler = 0 ∧ s.link.holding = none then
    lowered .sleep s
  else s

/-- R12, R32: where the engine is Idle in Run or Doze and the front slot is Rejected, its REJECT is held. -/
def withReject (s : State) : State :=
  match s.requests.slots with
  | [] => s
  | front :: rest =>
    match front.stage with
    | .waitingRejected reason =>
      if s.requests.engine = .idle ∧ (s.power.state = .run ∨ s.power.state = .doze) then
        { s with requests :=
            { slots := { front with stage := .replying } :: rest
              engine := .replying
                { bytes := parcel 0x81 (front.stored.getD 1 0) [front.stored.getD 0 0, rejectReasonByte reason]
                  effect := .nothing } } }
      else s
    | .filling => s
    | .waitingGood => s
    | .executing => s
    | .replying => s

/-- R180: the part as a return to Run leaves it, but for the notice and for what is peculiar to Sleep. -/
def resumed (s : State) : State :=
  { s with
    power := { s.power with state := .run, wakeDue := false }
    scanner := { s.scanner with
      states := Vector.replicate 64 .idle
      raw := 0
      armed := 0
      passTimer := s.scanner.config.period }
    frames := { s.frames with resuming := true } }

/-- R43: a count that stops at 255. -/
def counted (b : Byte) : Byte := if b.toNat = 255 then b else b + 1

/-- R15, R18: the assembler after a tick that does not bring its gap timer to 0. -/
def gapCounted : Assembler → Assembler
  | .awaitLength preMark => .awaitLength preMark
  | .collecting toCome sum damaged gap => .collecting toCome sum damaged (gap - 1)
  | .hunting gap => .hunting (gap - 1)

/-- R17, R18: the gap timer does not run out at the next tick. -/
def gapRuns : Assembler → Prop
  | .awaitLength _ => True
  | .collecting _ _ _ gap => 1 < gap
  | .hunting gap => 1 < gap

/-- R17, R18: the part after a timeout of the gap timer: an overrun that met the byte still held becomes the pre-mark. -/
def leftWith (s : State) : Assembler := .awaitLength (s.link.holding.isSome && s.link.overrunMet)

/-- R167: the alarm expires at the next tick. -/
abbrev alarmAtEnd (s : State) : Prop := s.time.alarmMode ≠ .off ∧ s.time.alarmCount = 1

/-- R169: the link watch expires at the next tick. -/
abbrev watchAtEnd (s : State) : Prop := s.time.watchPeriod ≠ 0 ∧ s.time.link = .live ∧ s.time.watchCount = 1

/-- R164: the timebase, the pass timer and the gap timer after a tick that brings neither the gap timer, the alarm nor the watch to 0. -/
def ticked (s : State) : State :=
  { s with
    time := { s.time with
      ticks := s.time.ticks + 1
      alarmCount := if s.time.alarmMode = .off then s.time.alarmCount else s.time.alarmCount - 1
      watchCount := if s.time.watchPeriod ≠ 0 ∧ s.time.link = .live then s.time.watchCount - 1 else s.time.watchCount }
    link := { s.link with assembler := gapCounted s.link.assembler }
    scanner :=
      if s.power.state = .run ∨ s.power.state = .sleepPending then
        if s.scanner.passTimer ≤ 1 then
          { s.scanner with passTimer := s.scanner.config.period, passesDue := s.scanner.passesDue + 1 }
        else { s.scanner with passTimer := s.scanner.passTimer - 1 }
      else s.scanner }

/-- R17, R18, R164, step 2: the part at a tick of `s`, with what the gap timer's end does where it ends at that tick. -/
def gapServed (s t : State) : State :=
  match s.link.assembler with
  | .awaitLength _ => t
  | .collecting _ _ _ gap =>
    if gap = 1 then
      { t with
        link := { t.link with assembler := leftWith s }
        requests := { t.requests with slots := t.requests.slots.filter fun slot => slot.stage ≠ .filling }
        notices := { t.notices with sticky := t.notices.sticky ||| BitVec.twoPow 11 2 }
        counters := { t.counters with framing := counted t.counters.framing } }
    else t
  | .hunting gap => if gap = 1 then { t with link := { t.link with assembler := leftWith s } } else t

/-- R164, step 4, R167, R176, R180: the same for the alarm. -/
def alarmServed (s t : State) : State :=
  if alarmAtEnd s then
    let rung : State :=
      { t with
        notices := { t.notices with sticky := t.notices.sticky ||| BitVec.twoPow 11 8 }
        time := { t.time with
          alarmMode := if s.time.alarmMode = .periodic then .periodic else .off
          alarmPeriod := if s.time.alarmMode = .periodic then s.time.alarmPeriod else 0
          alarmCount := if s.time.alarmMode = .periodic then s.time.alarmPeriod else 0 } }
    if s.power.state = .doze ∧ s.time.alarmWake = true then
      { resumed rung with notices := { rung.notices with sticky := rung.notices.sticky ||| BitVec.twoPow 11 3 } }
    else rung
  else t

/-- R164, step 5, R169: the same for the link watch. -/
def watchServed (s t : State) : State :=
  if watchAtEnd s then
    { t with
      notices := { t.notices with sticky := t.notices.sticky ||| BitVec.twoPow 11 1 }
      time := { t.time with link := .lost }
      views := if s.time.watchAction = .none then t.views else { t.views with source := .fallback }
      panel :=
        if s.time.watchAction = .fallbackAndShow ∧ (s.panel.mode = .off ∨ s.panel.mode = .blank) then
          { t.panel with mode := .showing }
        else t.panel }
  else t

/-! ## Keys as a pass reads them (R125, R132, R136, R142, R143) -/

/-- R125: an active key. -/
abbrev activeKey (c : ScanConfig) (k : Nat) : Prop := 60 ≤ k ∨ (k / 6 < c.drives ∧ k % 6 < c.senses)

/-- R132: the key is read closed in a pass whose lines show these keys closed. -/
abbrev readsClosed (c : ScanConfig) (closed : KeySet) (k : Fin 64) : Prop := closed.getLsbD k.val = true ∧ activeKey c k.val

/-- R136: three keys of which `holds` is true stand at the other corners of a rectangle with this matrix key. -/
def cornersHold (holds : Nat → Prop) (k : Nat) : Prop :=
  k < 60 ∧ ∃ d s : Nat, d < 10 ∧ s < 6 ∧ d ≠ k / 6 ∧ s ≠ k % 6 ∧
    holds (k / 6 * 6 + s) ∧ holds (d * 6 + k % 6) ∧ holds (d * 6 + s)

/-- R136: three further closed keys stand at the other corners of a rectangle with this key. -/
def cornered (raw : KeySet) (k : Fin 64) : Prop := cornersHold (fun n => raw.getLsbD n = true) k.val

/-- R132, R136: an active key whose contact is closed, or round which contacts and fourth corners of so many rounds lead. -/
def joinedWithin (c : ScanConfig) (contacts : KeySet) : Nat → Nat → Prop
  | 0, k => contacts.getLsbD k = true ∧ activeKey c k
  | rounds + 1, k =>
    joinedWithin c contacts rounds k ∨ (activeKey c k ∧ cornersHold (joinedWithin c contacts rounds) k)

/-- R134: the state of an enabled key after a pass that reads it open, with the settle count `d`. -/
def openedState (d : Nat) : KeyState → KeyState
  | .idle => .idle
  | .settlingDown _ => .idle
  | .down => if d ≤ 1 then .idle else .settlingUp 1
  | .settlingUp n => if d ≤ n + 1 then .idle else .settlingUp (n + 1)
  | .suppressed m => if d ≤ m + 1 then .idle else .suppressed (m + 1)

/-- R135: an enabled key that a pass reads closed reaches the settle count and makes its press-side transition. -/
def settlesDown (d : Nat) : KeyState → Bool
  | .idle => decide (d ≤ 1)
  | .settlingDown n => decide (d ≤ n + 1)
  | .down => false
  | .settlingUp _ => false
  | .suppressed _ => false

/-- R135: the state of an enabled key after a pass that reads it closed, where it makes no press-side transition. -/
def closedState : KeyState → KeyState
  | .idle => .settlingDown 1
  | .settlingDown n => .settlingDown (n + 1)
  | .down => .down
  | .settlingUp _ => .down
  | .suppressed _ => .suppressed 0

/-- R134, R135: a pass leaves this key as it is: disabled, or read open in Idle, or read closed in Down or in Suppressed with count 0. -/
def steadyKey (s : State) (closed : KeySet) (k : Fin 64) : Prop :=
  s.scanner.table[k].enabled = false ∨
    (¬ readsClosed s.scanner.config closed k ∧ s.scanner.states[k] = .idle) ∨
    (readsClosed s.scanner.config closed k ∧ (s.scanner.states[k] = .down ∨ s.scanner.states[k] = .suppressed 0))

/-- R131: a scan pass has fallen due and passes run. -/
def passOwed (s : State) : Prop := 0 < s.scanner.passesDue ∧ (s.power.state = .run ∨ s.power.state = .sleepPending)

/-- R132, R133: the part after a pass that has sampled the lines, with no ambiguous key, and moved no key. -/
def passed (closed : KeySet) (s : State) : State :=
  { s with
    scanner := { s.scanner with
      raw := sampled s.scanner.config closed
      ghost := false
      passesDue := s.scanner.passesDue - 1 } }

/-- R133, step 1: the ghost episode is begun and goes on, since some closed key is ambiguous. -/
def ghostGoesOn (closed : KeySet) (s : State) : Prop :=
  s.scanner.ghost = true ∧ ∃ k : Fin 64, readsClosed s.scanner.config closed k ∧ cornered (sampled s.scanner.config closed) k

/-- R133, steps 1 and 2, R134, R138, R140: the part after the sampling of these lines, the ghost check that leaves `ghost`, and the release side,
whose releases go out in ascending key number, clear the owner and end the rollover episode. -/
def releasedPart (closed : KeySet) (ghost : Bool) (s : State) : State :=
  let d := s.scanner.config.settle
  let isOpen := fun k : Fin 64 => s.scanner.table[k].enabled = true ∧ ¬ readsClosed s.scanner.config closed k
  let released := (List.finRange 64).filter fun k =>
    decide (isOpen k) && s.scanner.states[k].reported && !(openedState d s.scanner.states[k]).reported
  let states := Vector.ofFn fun k : Fin 64 =>
    if isOpen k then openedState d s.scanner.states[k] else s.scanner.states[k]
  let ownerReleased := ∃ k ∈ released, s.scanner.owner = some k
  { s with
    keys := { s.keys with
      events := s.keys.events ++
        released.map fun k => { kind := .release, key := BitVec.ofNat 8 k.val, time := s.time.ticks } }
    scanner := { s.scanner with
      raw := sampled s.scanner.config closed
      passesDue := s.scanner.passesDue - 1
      ghost := ghost
      states := states
      owner := if ownerReleased then none else s.scanner.owner
      repeatTimer := if ownerReleased then none else s.scanner.repeatTimer
      rollover :=
        if released ≠ [] ∧ states.toList.countP KeyState.reported < 8 then false else s.scanner.rollover } }

/-- R133, step 3, R135: the part after the press side too, which takes the keys read closed in ascending key number. -/
def pressedPart (closed : KeySet) (ghost : Bool) (s : State) : State :=
  let press := fun (u : State) (k : Fin 64) =>
    if s.scanner.table[k].enabled = true ∧ readsClosed s.scanner.config closed k then
      if settlesDown s.scanner.config.settle s.scanner.states[k] then pressTransition k u
      else { u with scanner := { u.scanner with states := u.scanner.states.set k (closedState s.scanner.states[k]) } }
    else u
  (List.finRange 64).foldl press (releasedPart closed ghost s)

/-- R141: step 4 of this pass serves the repeat timer of an owner that is Down and was reported before the press side, and it would run out. -/
def repeatDue (closed : KeySet) (ghost : Bool) (s : State) : Prop :=
  ∃ (k : Fin 64) (timer : Nat), (pressedPart closed ghost s).scanner.owner = some k ∧
    (pressedPart closed ghost s).scanner.repeatTimer = some timer ∧
    (pressedPart closed ghost s).scanner.states[k] = .down ∧
    (releasedPart closed ghost s).scanner.states[k].reported = true ∧ timer ≤ s.scanner.config.period

/-- R142: the key stands on the line: a sense line 0 to 5 with an active drive line, or its own direct input 6 to 9. -/
def onLine (c : ScanConfig) (line : Nat) (k : Fin 64) : Prop :=
  (line < 6 ∧ k.val < 60 ∧ k.val % 6 = line ∧ k.val / 6 < c.drives) ∨ (6 ≤ line ∧ k.val = line + 54)

/-! ## Which commands may change a store, and the power state (R172) -/

/-- The resets of the power-on kind. -/
def resetCommand : Instr → Bool
  | .fullReset _ => true
  | .powerOnReset => true
  | .rstPinReset low => low
  | _ => false

/-- The frame boundaries. -/
def boundaryCommand (c : Instr) : Bool := stepClass c == .boundary

/-- The ticks. -/
def tickCommand (c : Instr) : Bool := stepClass c == .tick

/-- The scan passes. -/
def passCommand (c : Instr) : Bool := stepClass c == .scanPass

/-- R172: the changes of power state, each with the commands in whose step it can be made. -/
def powerChange (c : Instr) (before after : PowerState) : Bool :=
  match before, after with
  | _, .starting => resetCommand c
  | .starting, .run => c == .endOfStarting
  | .run, .doze => c == .posting
  | .run, .sleepPending => c == .posting
  | .sleepPending, .run => c == .byteTaken
  | .sleepPending, .sleep =>
    c == .linkDataRead || c == .byteTaken || tickCommand c || (match c with | .resync _ => true | _ => false)
  | .doze, .run => c == .wake || c == .wakeStep || tickCommand c
  | .sleep, .run => c == .wakeStep
  | _, _ => false

end Sys2Proof.Machine
end

