-- ==== Sys2Proof/WellFormed.lean ====
section
/-! DEFINITION. When a command is one that its row of the table can stand for: a port write names an address of its row, and
a Link Control write holds the bits that its row says (R3, R5); the ghosts that a scan pass names are matrix keys (R136). Every other operand is legal at every value of its type. -/

namespace Sys2Proof

/-- A command with operands that its row of the table admits. Bit 0 of a Link Control byte is RESYNC and bit 1 is
FULL RESET (R5). -/
def Instr.wellFormed : Instr → Bool
  | .resync value => value.getLsbD 0 && !value.getLsbD 1
  | .fullReset value => value.getLsbD 1
  | .noticeAcknowledge address _ => address == 2 || address == 3
  | .noticeMask address _ => address == 4 || address == 5
  | .ignoredPortWrite address _ => address == 6 || address == 7
  | .scanPass longGhosts => longGhosts.toNat < 2 ^ 60
  | .repeatEvent longGhosts => longGhosts.toNat < 2 ^ 60
  | .linkDataWrite _ | .linkDataRead | .linkStatusRead | .byteTaken | .gapTimeout | .huntingEnd | .posting |
    .sleepEntry | .unknownKindRequest | .identify | .echo | .getStatus | .clearCounters | .restart |
    .configurePanel | .setDisplayMode | .setContrast | .setBlink | .writeCanvas | .readCanvas |
    .writeAttributes | .readAttributes | .setCursor | .writeAtCursor | .clearCanvas | .setView | .getView |
    .setBackdrop | .selectViews | .stage | .loadDescriptor | .freeDescriptor | .readDescriptor |
    .submitChain | .cancelChain | .chainStatus | .configureScan | .setKey | .takeKeys | .flushKeys |
    .getKeyStates | .readTime | .setAlarm | .setLinkWatch | .enterDoze | .enterSleep | .wake |
    .frameBoundary _ | .resumingBoundary | .rowScanOut | .tick | .alarmExpiry |
    .linkWatchExpiry | .wakeStep | .endOfStarting | .powerOnReset | .rstPinReset _ |
    .watchedLineChange _ _ => true

end Sys2Proof
end

