-- ==== Sys2Proof/Certificates/Slice0/Obligations.lean ====
section
/-! DEFINITION. The statements for the provers, chapter by chapter of the spec. -/

open Sys2Proof Sys2Proof.Machine

/-! ## Chapter 2: the general requests -/

/-- R40, R41, R42, R44: IDENTIFY, ECHO, GET STATUS and CLEAR COUNTERS at every payload: the size check, the result bytes, and the one
effect, that CLEAR COUNTERS sets the five counters to 0. -/
def Obligations.GeneralRequestsAnswer : Prop :=
  ∀ (tag : Byte) (payload : List Byte) (s : State),
    (RequestDue 0x01 tag payload s → exec .identify s = .next (match payload with
      | [] => answeredOnly 0x01 tag 0
          [0x0A, 0x19, 1, 0, 1, 128, 3, 4, 2, 160, 64, 0, 4, 32, 4, 4, 4, 192, 63, 64, 8, 24, 11] s
      | _ => answeredOnly 0x01 tag 2 [] s)) ∧
    (RequestDue 0x02 tag payload s → exec .echo s = .next
      (if payload.length ≤ 58 then answeredOnly 0x02 tag 0 payload s else answeredOnly 0x02 tag 2 [] s)) ∧
    (RequestDue 0x03 tag payload s → exec .getStatus s = .next (match payload with
      | [] => answeredOnly 0x03 tag 0
          [if s.power.state = .doze then 2 else 1, displayModeByte s.panel.mode, tableByte s.views.source,
           linkStateByte s.time.link, resetCauseByte s.power.cause, BitVec.ofNat 8 s.requests.slots.length,
           BitVec.ofNat 8 s.keys.events.length, BitVec.ofNat 8 s.chains.queue.length, s.counters.overrun,
           s.counters.framing, s.counters.reject, s.counters.lateFrame, s.counters.lostKey] s
      | _ => answeredOnly 0x03 tag 2 [] s)) ∧
    (RequestDue 0x04 tag payload s → exec .clearCounters s = .next (match payload with
      | [] =>
        { answeredOnly 0x04 tag 0
            [s.counters.overrun, s.counters.framing, s.counters.reject, s.counters.lateFrame, s.counters.lostKey] s with
          counters := { overrun := 0, framing := 0, reject := 0, lateFrame := 0, lostKey := 0 } }
      | _ => answeredOnly 0x04 tag 2 [] s))

/-- R175, R176, R177, R182: RESTART, ENTER DOZE, ENTER SLEEP and WAKE at every payload. The first three change nothing in their
execution step; what the posting of their REPLY will do is held with it. WAKE in Doze returns the part to Run; that every line is then unarmed (log entry 4) and that
the engine holds the REPLY of WAKE after it (log entry 31) is the model's choice. -/
def Obligations.PowerRequestsAnswer : Prop :=
  ∀ (tag : Byte) (payload : List Byte) (s : State),
    (RequestDue 0x05 tag payload s → exec .restart s = .next (match payload with
      | [] => { s with requests := replyHeld 0x05 tag 0 [] .warmReset s.requests }
      | _ => answeredOnly 0x05 tag 2 [] s)) ∧
    (RequestDue 0x3B tag payload s → exec .enterDoze s = .next (match payload with
      | [] =>
        if s.power.state = .doze then answeredOnly 0x3B tag 0 [] s
        else if s.chains.queue = [] then { s with requests := replyHeld 0x3B tag 0 [] .enterDoze s.requests }
        else answeredOnly 0x3B tag 4 [] s
      | _ => answeredOnly 0x3B tag 2 [] s)) ∧
    (RequestDue 0x3C tag payload s → exec .enterSleep s = .next (match payload with
      | [] =>
        if s.power.state = .doze then answeredOnly 0x3C tag 6 [] s
        else if s.chains.queue = [] then { s with requests := replyHeld 0x3C tag 0 [] .enterSleep s.requests }
        else answeredOnly 0x3C tag 4 [] s
      | _ => answeredOnly 0x3C tag 2 [] s)) ∧
    (RequestDue 0x3D tag payload s → exec .wake s = .next (match payload with
      | [] =>
        if s.power.state = .doze then
          { answeredOnly 0x3D tag 0 [] s with
            notices := { s.notices with sticky := s.notices.sticky ||| BitVec.twoPow 11 3 }
            scanner := { s.scanner with
              states := Vector.replicate 64 .idle
              raw := 0
              armed := 0
              passTimer := s.scanner.config.period }
            frames := { s.frames with resuming := true }
            power := { s.power with state := .run, wakeDue := false } }
        else answeredOnly 0x3D tag 0 [] s
      | _ => answeredOnly 0x3D tag 2 [] s))

/-! ## Chapter 5: the panel requests -/

/-- R80, R81, R83, R86: the panel requests at every payload: their sizes, ranges, the WRONG_STATE check of CONFIGURE PANEL, their effect. -/
def Obligations.PanelRequestsAnswer : Prop :=
  ∀ (tag : Byte) (payload : List Byte) (s : State),
    (RequestDue 0x10 tag payload s → exec .configurePanel s = .next (match payload with
      | [c, r, f] =>
        if (32 ≤ c.toNat ∧ c.toNat ≤ 160 ∧ c.toNat % 8 = 0) ∧ (16 ≤ r.toNat ∧ r.toNat ≤ 64 ∧ r.toNat % 8 = 0) ∧
            40 ≤ f.toNat ∧ f.toNat ≤ 125 then
          if s.panel.mode = .off ∧ s.panel.snapshot.mode = .off then
            { answeredOnly 0x10 tag 0 [] s with panel := { s.panel with columns := c, rows := r, frameRate := f } }
          else answeredOnly 0x10 tag 6 [] s
        else answeredOnly 0x10 tag 3 [] s
      | _ => answeredOnly 0x10 tag 2 [] s)) ∧
    (RequestDue 0x11 tag payload s → exec .setDisplayMode s = .next (match payload with
      | [m] => match m.toNat with
        | 0 => { answeredOnly 0x11 tag 0 [] s with panel := { s.panel with mode := .off } }
        | 1 => { answeredOnly 0x11 tag 0 [] s with panel := { s.panel with mode := .blank } }
        | 2 => { answeredOnly 0x11 tag 0 [] s with panel := { s.panel with mode := .showing } }
        | 3 => { answeredOnly 0x11 tag 0 [] s with panel := { s.panel with mode := .test } }
        | _ => answeredOnly 0x11 tag 3 [] s
      | _ => answeredOnly 0x11 tag 2 [] s)) ∧
    (RequestDue 0x12 tag payload s → exec .setContrast s = .next (match payload with
      | [v] =>
        if v.toNat ≤ 31 then { answeredOnly 0x12 tag 0 [] s with panel := { s.panel with contrast := v } }
        else answeredOnly 0x12 tag 3 [] s
      | _ => answeredOnly 0x12 tag 2 [] s)) ∧
    (RequestDue 0x13 tag payload s → exec .setBlink s = .next (match payload with
      | [n] =>
        if 2 ≤ n.toNat then
          { answeredOnly 0x13 tag 0 [] s with
            frames := { s.frames with blinkPeriod := n, blinkCount := 0, blinkPhase := .shown } }
        else answeredOnly 0x13 tag 3 [] s
      | _ => answeredOnly 0x13 tag 2 [] s))

/-! ## Chapter 3: the canvas requests -/

/-- R36, R48, R50, R52: WRITE CANVAS and WRITE ATTRIBUTES at every payload, on a canvas in its canonical form: a wrong size, a run that does not fit
or another bad field, and a run that fits. In a run that fits, the k-th byte
goes to cell s + k; every other cell, and in Keep mode every attribute set, is unchanged; the cursor does not move. -/
def Obligations.CanvasRunsAreWritten : Prop :=
  answersBadSize .writeCanvas 0x18 (fun n => 5 ≤ n ∧ n ≤ 60) ∧ answersBadSize .writeAttributes 0x1A (fun n => 3 ≤ n ∧ n ≤ 60) ∧
  ∀ (tag : Byte) (s : State), s.canvas.pixels.wf = true → s.canvas.attributes.wf = true →
    (∀ (c r m a : Byte) (pixels : List Byte), RequestDue 0x18 tag (c :: r :: m :: a :: pixels) s →
      1 ≤ pixels.length → pixels.length ≤ 56 →
      if c.toNat ≤ 31 ∧ r.toNat ≤ 127 ∧ (m = 0 ∨ m = 1) ∧ r.toNat * 32 + c.toNat + pixels.length ≤ 4096 then
        ∃ canvas : Canvas, exec .writeCanvas s = .next { answeredOnly 0x18 tag 0 [] s with canvas := canvas } ∧
          canvas.cursor = s.canvas.cursor ∧ canvas.step = s.canvas.step ∧
          (∀ k, k < pixels.length → memRead canvas.pixels (r.toNat * 32 + c.toNat + k) = pixels.getD k 0) ∧
          (∀ k, k < pixels.length → memRead canvas.attributes (r.toNat * 32 + c.toNat + k) =
            if m = 1 then a &&& 0x07 else memRead s.canvas.attributes (r.toNat * 32 + c.toNat + k)) ∧
          ∀ cell, cell < r.toNat * 32 + c.toNat ∨ r.toNat * 32 + c.toNat + pixels.length ≤ cell →
            memRead canvas.pixels cell = memRead s.canvas.pixels cell ∧
              memRead canvas.attributes cell = memRead s.canvas.attributes cell
      else exec .writeCanvas s = .next (answeredOnly 0x18 tag 3 [] s)) ∧
    (∀ (c r : Byte) (sets : List Byte), RequestDue 0x1A tag (c :: r :: sets) s → 1 ≤ sets.length → sets.length ≤ 58 →
      if c.toNat ≤ 31 ∧ r.toNat ≤ 127 ∧ r.toNat * 32 + c.toNat + sets.length ≤ 4096 then
        ∃ attributes : Memory,
          exec .writeAttributes s =
            .next { answeredOnly 0x1A tag 0 [] s with canvas := { s.canvas with attributes := attributes } } ∧
          (∀ k, k < sets.length → memRead attributes (r.toNat * 32 + c.toNat + k) = sets.getD k 0 &&& 0x07) ∧
          ∀ cell, cell < r.toNat * 32 + c.toNat ∨ r.toNat * 32 + c.toNat + sets.length ≤ cell →
            memRead attributes cell = memRead s.canvas.attributes cell
      else exec .writeAttributes s = .next (answeredOnly 0x1A tag 3 [] s))

/-- R51, R53: READ CANVAS and READ ATTRIBUTES at every payload: the bytes of the run in run order, or the failing stage's outcome; nothing
outside the queue and the engine changes. -/
def Obligations.CanvasRunsAreRead : Prop :=
  ∀ (tag : Byte) (payload : List Byte) (s : State),
    (RequestDue 0x19 tag payload s → exec .readCanvas s = .next (match payload with
      | [c, r, n] =>
        if c.toNat ≤ 31 ∧ r.toNat ≤ 127 ∧ 1 ≤ n.toNat ∧ n.toNat ≤ 56 ∧ r.toNat * 32 + c.toNat + n.toNat ≤ 4096 then
          answeredOnly 0x19 tag 0
            ((List.range n.toNat).map fun k => memRead s.canvas.pixels (r.toNat * 32 + c.toNat + k)) s
        else answeredOnly 0x19 tag 3 [] s
      | _ => answeredOnly 0x19 tag 2 [] s)) ∧
    (RequestDue 0x1B tag payload s → exec .readAttributes s = .next (match payload with
      | [c, r, n] =>
        if c.toNat ≤ 31 ∧ r.toNat ≤ 127 ∧ 1 ≤ n.toNat ∧ n.toNat ≤ 58 ∧ r.toNat * 32 + c.toNat + n.toNat ≤ 4096 then
          answeredOnly 0x1B tag 0
            ((List.range n.toNat).map fun k => memRead s.canvas.attributes (r.toNat * 32 + c.toNat + k) &&& 0x07) s
        else answeredOnly 0x1B tag 3 [] s
      | _ => answeredOnly 0x1B tag 2 [] s))

/-- R36, R54: CLEAR CANVAS takes two bytes and gives every one of the 4096 cells the same pixels and the same attribute set, and does not move the cursor. -/
def Obligations.ClearCanvasFillsEveryCell : Prop :=
  answersBadSize .clearCanvas 0x1E (fun n => n = 2) ∧
  ∀ (tag v a : Byte) (s : State), RequestDue 0x1E tag [v, a] s →
    if v = 0 ∨ v = 1 then
      ∃ pixels attributes : Memory,
        exec .clearCanvas s =
          .next { answeredOnly 0x1E tag 0 [] s with
            canvas := { s.canvas with pixels := pixels, attributes := attributes } } ∧
        ∀ cell, cell < 4096 →
          memRead pixels cell = (if v = 1 then 0xFF else 0x00) ∧ memRead attributes cell = a &&& 0x07
    else exec .clearCanvas s = .next (answeredOnly 0x1E tag 3 [] s)

/-- R36, R56, R57: the sizes of SET CURSOR and WRITE AT CURSOR. SET CURSOR sets cell and step together, or nothing. WRITE AT CURSOR, on a canvas in its canonical form, writes the k-th byte
to the cell k steps on, modulo 4096, leaves every other cell, moves the cursor past the last cell written and returns it. -/
def Obligations.CursorRequestsAnswer : Prop :=
  answersBadSize .setCursor 0x1C (fun n => n = 3) ∧ answersBadSize .writeAtCursor 0x1D (fun n => 3 ≤ n ∧ n ≤ 59) ∧
  ∀ (tag : Byte) (s : State),
    (∀ lo hi step : Byte, RequestDue 0x1C tag [lo, hi, step] s →
      exec .setCursor s = .next
        (if hi.toNat * 256 + lo.toNat < 4096 ∧ (step = 0 ∨ step = 1) then
          { answeredOnly 0x1C tag 0 [] s with
            canvas := { s.canvas with
              cursor := BitVec.ofNat 12 (hi.toNat * 256 + lo.toNat)
              step := if step = 0 then .forward else .backward } }
        else answeredOnly 0x1C tag 3 [] s)) ∧
    (∀ (m a : Byte) (pixels : List Byte), s.canvas.pixels.wf = true → s.canvas.attributes.wf = true →
      RequestDue 0x1D tag (m :: a :: pixels) s → 1 ≤ pixels.length → pixels.length ≤ 57 →
      if m = 0 ∨ m = 1 then
        ∃ canvas : Canvas,
          exec .writeAtCursor s = .next
            { answeredOnly 0x1D tag 0
                [BitVec.ofNat 8 (steppedCell s.canvas pixels.length % 256), BitVec.ofNat 8 (steppedCell s.canvas pixels.length / 256)] s with
              canvas := canvas } ∧
          canvas.cursor.toNat = steppedCell s.canvas pixels.length ∧ canvas.step = s.canvas.step ∧
          (∀ k, k < pixels.length → memRead canvas.pixels (steppedCell s.canvas k) = pixels.getD k 0) ∧
          (∀ k, k < pixels.length → memRead canvas.attributes (steppedCell s.canvas k) =
            if m = 1 then a &&& 0x07 else memRead s.canvas.attributes (steppedCell s.canvas k)) ∧
          ∀ cell, (∀ k, k < pixels.length → cell ≠ steppedCell s.canvas k) →
            memRead canvas.pixels cell = memRead s.canvas.pixels cell ∧
              memRead canvas.attributes cell = memRead s.canvas.attributes cell
      else exec .writeAtCursor s = .next (answeredOnly 0x1D tag 3 [] s))

/-! ## Chapter 4: the view requests -/

/-- R36, R61, R62, R65 to R68: the four sizes, SET VIEW with its checks field by field, GET VIEW with its 17 result bytes, SET BACKDROP and SELECT VIEWS; each
changes the one item it names and nothing else outside the queue and the engine. -/
def Obligations.ViewRequestsAnswer : Prop :=
  (answersBadSize .setView 0x20 (fun n => n = 17) ∧ answersBadSize .getView 0x21 (fun n => n = 2) ∧
    answersBadSize .setBackdrop 0x22 (fun n => n = 1) ∧ answersBadSize .selectViews 0x23 (fun n => n = 1)) ∧
  ∀ (tag : Byte) (s : State),
    (∀ (t i flags left top width height ox oy bl bt br bb vr vd hr hd : Byte),
      RequestDue 0x20 tag [t, i, flags, left, top, width, height, ox, oy, bl, bt, br, bb, vr, vd, hr, hd] s →
      exec .setView s = .next
        (match tableOf t, viewIndexOf i with
        | some table, some index =>
          if left.toNat ≤ 159 ∧ top.toNat ≤ 63 ∧ 8 ≤ width.toNat ∧ width.toNat ≤ 160 ∧ 1 ≤ height.toNat ∧
              height.toNat ≤ 64 ∧ bt.toNat ≤ 127 ∧ bb.toNat ≤ 127 ∧ bl.toNat ≤ br.toNat ∧ bt.toNat ≤ bb.toNat ∧
              (bl.toNat ≤ ox.toNat ∧ ox.toNat ≤ br.toNat) ∧ (bt.toNat ≤ oy.toNat ∧ oy.toNat ≤ bb.toNat) ∧
              (vd = 0 ∨ vd = 1) ∧ (hd = 0 ∨ hd = 1) then
            { answeredOnly 0x20 tag 0 [] s with
              views := s.views.setView table index
                { record :=
                    { enabled := flags.getLsbD 0, inverse := flags.getLsbD 1, left := left, top := top, width := width,
                      height := height, originX := ox, originY := oy, bandLeft := bl, bandTop := bt, bandRight := br,
                      bandBottom := bb, verticalRate := vr, verticalDirection := if vd = 0 then .up else .down,
                      horizontalRate := hr, horizontalDirection := if hd = 0 then .left else .right }
                  verticalCount := 0, horizontalCount := 0 } }
          else answeredOnly 0x20 tag 3 [] s
        | _, _ => answeredOnly 0x20 tag 3 [] s)) ∧
    (∀ t i : Byte, RequestDue 0x21 tag [t, i] s →
      exec .getView s = .next
        (match tableOf t, viewIndexOf i with
        | some table, some index =>
          let v := (s.views.table table)[index]
          answeredOnly 0x21 tag 0
            [(if v.record.enabled then 1 else 0) ||| (if v.record.inverse then 2 else 0), v.record.left, v.record.top,
             v.record.width, v.record.height, v.record.originX, v.record.originY, v.record.bandLeft, v.record.bandTop,
             v.record.bandRight, v.record.bandBottom, v.record.verticalRate,
             if v.record.verticalDirection = .up then 0 else 1, v.record.horizontalRate,
             if v.record.horizontalDirection = .left then 0 else 1, v.verticalCount, v.horizontalCount] s
        | _, _ => answeredOnly 0x21 tag 3 [] s)) ∧
    (∀ b : Byte, RequestDue 0x22 tag [b] s →
      exec .setBackdrop s = .next
        (if b = 0 then { answeredOnly 0x22 tag 0 [] s with views := { s.views with backdrop := false } }
        else if b = 1 then { answeredOnly 0x22 tag 0 [] s with views := { s.views with backdrop := true } }
        else answeredOnly 0x22 tag 3 [] s)) ∧
    (∀ b : Byte, RequestDue 0x23 tag [b] s →
      exec .selectViews s = .next
        (if b = 0 then { answeredOnly 0x23 tag 0 [] s with views := { s.views with source := .primary } }
        else if b = 1 then { answeredOnly 0x23 tag 0 [] s with views := { s.views with source := .fallback } }
        else answeredOnly 0x23 tag 3 [] s))

/-! ## Chapter 6: the staging memory, the descriptors and the chains -/

/-- R36, R98, R99: STAGE takes 3 to 60 bytes and writes its run, on a staging memory in its canonical form, unless some offset of the run lies in the staging range of a
COPY in a Held slot; no other byte changes. -/
def Obligations.StageWritesOrIsLocked : Prop :=
  answersBadSize .stage 0x28 (fun n => 3 ≤ n ∧ n ≤ 60) ∧
  ∀ (tag lo hi : Byte) (bytes : List Byte) (s : State), s.staging.wf = true → PoolLegal s.chains.pool →
    RequestDue 0x28 tag (lo :: hi :: bytes) s → 1 ≤ bytes.length → bytes.length ≤ 58 →
    let start := hi.toNat * 256 + lo.toNat
    let locked := ∃ (i : Fin 32) (handle : Byte) (d : Descriptor) (offset : Word) (r : Rectangle) (m : AttributeMode)
      (a : AttributeSet) (k : Nat), s.chains.pool[i] = .held handle d ∧ d.action = .copy offset r m a ∧
        (start ≤ k ∧ k < start + bytes.length) ∧ offset.toNat ≤ k ∧ k < offset.toNat + r.width.toNat * r.height.toNat
    (1024 < start + bytes.length → exec .stage s = .next (answeredOnly 0x28 tag 3 [] s)) ∧
    (start + bytes.length ≤ 1024 → locked → exec .stage s = .next (answeredOnly 0x28 tag 5 [] s)) ∧
    (start + bytes.length ≤ 1024 → ¬ locked →
      ∃ staging : Memory, exec .stage s = .next { answeredOnly 0x28 tag 0 [] s with staging := staging } ∧
        (∀ k, k < bytes.length → memRead staging (start + k) = bytes.getD k 0) ∧
        ∀ offset, offset < start ∨ start + bytes.length ≤ offset → memRead staging offset = memRead s.staging offset)

/-- R36, R102, R103, R104: the three sizes; LOAD DESCRIPTOR accepts exactly the legal fields and stores them so that READ DESCRIPTOR returns the bytes that were
accepted; FREE DESCRIPTOR erases a slot; both answer BUSY for a Held slot; no other slot changes. -/
def Obligations.DescriptorRequestsAnswer : Prop :=
  (answersBadSize .loadDescriptor 0x29 (fun n => n = 12) ∧ answersBadSize .freeDescriptor 0x2A (fun n => n = 1) ∧
    answersBadSize .readDescriptor 0x2E (fun n => n = 1)) ∧
  ∀ (tag : Byte) (s : State),
    (∀ (i : Fin 32) (code next flags : Byte) (q : List Byte), q.length = 8 →
      RequestDue 0x29 tag (BitVec.ofNat 8 i.val :: code :: next :: flags :: q) s →
      (loadable code q ∧ (next.toNat < 32 ∨ next = 0xFF) → s.chains.pool[i].isHeld = false →
        ∃ d : Descriptor, d.action.legal ∧ descriptorBytes d = [code, next, flags &&& 0x01] ++ storedParameters code q ∧
          exec .loadDescriptor s =
            .next { answeredOnly 0x29 tag 0 [] s with
              chains := { s.chains with pool := s.chains.pool.set i (.loaded d) } }) ∧
      (loadable code q ∧ (next.toNat < 32 ∨ next = 0xFF) → s.chains.pool[i].isHeld = true →
        exec .loadDescriptor s = .next (answeredOnly 0x29 tag 4 [] s)) ∧
      (¬ (loadable code q ∧ (next.toNat < 32 ∨ next = 0xFF)) →
        exec .loadDescriptor s = .next (answeredOnly 0x29 tag 3 [] s))) ∧
    (∀ i : Fin 32, RequestDue 0x2A tag [BitVec.ofNat 8 i.val] s →
      exec .freeDescriptor s = .next
        (if s.chains.pool[i].isHeld then answeredOnly 0x2A tag 4 [] s
        else { answeredOnly 0x2A tag 0 [] s with chains := { s.chains with pool := s.chains.pool.set i .free } })) ∧
    (∀ i : Fin 32, RequestDue 0x2E tag [BitVec.ofNat 8 i.val] s →
      exec .readDescriptor s = .next (answeredOnly 0x2E tag 0
        (match s.chains.pool[i] with
        | .free => [0, 0, 0, 0, 0, 0, 0, 0, 0, 0, 0, 0, 0]
        | .loaded d => [1, 0] ++ descriptorBytes d
        | .held handle d => [2, handle] ++ descriptorBytes d) s)) ∧
    (∀ (b : Byte) (rest : List Byte), 32 ≤ b.toNat →
      (RequestDue 0x29 tag (b :: rest) s → rest.length = 11 → exec .loadDescriptor s = .next (answeredOnly 0x29 tag 3 [] s)) ∧
      (RequestDue 0x2A tag [b] s → exec .freeDescriptor s = .next (answeredOnly 0x2A tag 3 [] s)) ∧
      (RequestDue 0x2E tag [b] s → exec .readDescriptor s = .next (answeredOnly 0x2E tag 3 [] s)))

/-- R112 to R116: SUBMIT CHAIN of a sound chain: the slots are Held with a fresh handle, the record joins the queue in its place, and the
REPLY carries the handle, the length and the due frame. -/
def Obligations.SubmitChainHoldsAndQueues : Prop :=
  ∀ (tag kind lo hi flags : Byte) (head : Fin 32) (path : List (Fin 32)) (due : Word) (s : State), ChainQueueGood s →
    RequestDue 0x2B tag [BitVec.ofNat 8 head.val, kind, lo, hi, flags] s → s.power.state = .run →
    s.chains.queue.length < 4 → path.head? = some head → path.Nodup → loadedPath s.chains.pool path →
    pathNext s.chains.pool path none →
    ((kind = 0 ∧ due = s.frames.counter + 1) ∨
      (kind = 1 ∧ 1 ≤ hi.toNat * 256 + lo.toNat ∧ hi.toNat * 256 + lo.toNat ≤ 255 ∧ due = s.frames.counter + (hi ++ lo)) ∨
      (kind = 2 ∧ due = hi ++ lo)) →
    ∃ (j : Nat) (handle : Byte) (pool : Vector PoolSlot 32) (front back : List PendingChain), j < 4 ∧
      handle = handleCandidate s.chains.lastHandle j ∧ (∀ c ∈ s.chains.queue, c.handle ≠ handle) ∧
      (∀ k, k < j → ∃ c ∈ s.chains.queue, c.handle = handleCandidate s.chains.lastHandle k) ∧
      (∀ i : Fin 32, i ∉ path → pool[i] = s.chains.pool[i]) ∧
      (∀ (i : Fin 32) (d : Descriptor), i ∈ path → s.chains.pool[i] = .loaded d → pool[i] = .held handle d) ∧
      s.chains.queue = front ++ back ∧
      (if flags.getLsbD 0 then (∀ c ∈ front, c.urgent = true) ∧ ∀ c ∈ back, c.urgent = false else back = []) ∧
      exec .submitChain s = .next
        { answeredOnly 0x2B tag 0
            [handle, BitVec.ofNat 8 path.length, BitVec.ofNat 8 (due.toNat % 256), BitVec.ofNat 8 (due.toNat / 256)] s with
          chains := { s.chains with
            pool := pool
            queue := front ++ { handle := handle, head := head, length := path.length, due := due,
                                urgent := flags.getLsbD 0 } :: back
            lastHandle := handle } }

/-- R36, R112, R113: every way in which SUBMIT CHAIN fails, in the order of its checks, the size first; a failure changes nothing outside the queue and the
engine. -/
def Obligations.SubmitChainRefusals : Prop :=
  answersBadSize .submitChain 0x2B (fun n => n = 5) ∧
  ∀ (tag h kind lo hi flags : Byte) (s : State), RequestDue 0x2B tag [h, kind, lo, hi, flags] s →
    let legal := h.toNat < 32 ∧ (kind = 0 ∨ (kind = 1 ∧ hi = 0 ∧ lo ≠ 0) ∨ kind = 2)
    (¬ legal → exec .submitChain s = .next (answeredOnly 0x2B tag 3 [] s)) ∧
    (legal → s.power.state = .doze → exec .submitChain s = .next (answeredOnly 0x2B tag 6 [] s)) ∧
    (legal → s.power.state = .run → 4 ≤ s.chains.queue.length → exec .submitChain s = .next (answeredOnly 0x2B tag 7 [] s)) ∧
    (legal → s.power.state = .run → s.chains.queue.length < 4 →
      (∀ head : Fin 32, h = BitVec.ofNat 8 head.val → (∀ d, s.chains.pool[head] ≠ .loaded d) →
        exec .submitChain s = .next (answeredOnly 0x2B tag 8 [0, 1, h] s)) ∧
      ∀ (path : List (Fin 32)) (head n : Fin 32), h = BitVec.ofNat 8 head.val → path.head? = some head → path.Nodup →
        loadedPath s.chains.pool path → pathNext s.chains.pool path (some n) →
        (path.length = 32 → exec .submitChain s = .next (answeredOnly 0x2B tag 8 [32, 3, BitVec.ofNat 8 n.val] s)) ∧
        (path.length < 32 → (∀ d, s.chains.pool[n] ≠ .loaded d) →
          exec .submitChain s =
            .next (answeredOnly 0x2B tag 8 [BitVec.ofNat 8 path.length, 1, BitVec.ofNat 8 n.val] s)) ∧
        (path.length < 32 → n ∈ path →
          exec .submitChain s =
            .next (answeredOnly 0x2B tag 8 [BitVec.ofNat 8 path.length, 2, BitVec.ofNat 8 n.val] s)))

/-- R121: CANCEL CHAIN of a pending chain takes its record from the queue, returns exactly its slots to Loaded and records the outcome
Cancelled; a handle of 0 is out of range, and a handle that no pending chain has is unknown. R36: it takes one byte. -/
def Obligations.CancelChainReleasesSlots : Prop :=
  answersBadSize .cancelChain 0x2C (fun n => n = 1) ∧
  ∀ (tag h : Byte) (s : State), RequestDue 0x2C tag [h] s →
    (h = 0 → exec .cancelChain s = .next (answeredOnly 0x2C tag 3 [] s)) ∧
    (h ≠ 0 → (∀ c ∈ s.chains.queue, c.handle ≠ h) → exec .cancelChain s = .next (answeredOnly 0x2C tag 9 [] s)) ∧
    ∀ c ∈ s.chains.queue, HoldsGood s → c.handle = h →
      ∃ pool : Vector PoolSlot 32,
        (∀ i : Fin 32, pool[i] = match s.chains.pool[i] with
          | .held g d => if g = h then .loaded d else .held g d
          | other => other) ∧
        exec .cancelChain s = .next
          { answeredOnly 0x2C tag 0 [BitVec.ofNat 8 c.length] s with
            chains := { s.chains with
              pool := pool
              queue := s.chains.queue.filter fun x => x.handle != h
              outcomes := outcomesWith { handle := h, result := .cancelled, skipped := 0 } s.chains.outcomes } }

/-- R36, R122: CHAIN STATUS takes no byte, returns its 44 bytes and changes nothing. -/
def Obligations.ChainStatusReports : Prop :=
  answersBadSize .chainStatus 0x2D (fun n => n = 0) ∧
  ∀ (tag : Byte) (s : State), RequestDue 0x2D tag [] s → s.chains.queue.length ≤ 4 → s.chains.outcomes.length ≤ 4 →
    ∃ result : List Byte, exec .chainStatus s = .next (answeredOnly 0x2D tag 0 result s) ∧ result.length = 44 ∧
      result = [BitVec.ofNat 8 s.chains.queue.length] ++
        (s.chains.queue.flatMap fun c =>
          [c.handle, BitVec.ofNat 8 c.head.val, BitVec.ofNat 8 c.length, BitVec.ofNat 8 (c.due.toNat % 256),
           BitVec.ofNat 8 (c.due.toNat / 256), if c.urgent then 1 else 0]) ++
        List.replicate (24 - 6 * s.chains.queue.length) 0 ++
        [BitVec.ofNat 8 s.chains.outcomes.length] ++
        (s.chains.outcomes.flatMap fun o => [o.handle, chainResultByte o.result, BitVec.ofNat 8 o.skipped]) ++
        List.replicate (12 - 3 * s.chains.outcomes.length) 0 ++
        [s.chains.lastMark,
         BitVec.ofNat 8 (s.chains.pool.toList.countP fun slot => slot = .free),
         BitVec.ofNat 8 (s.chains.pool.toList.countP PoolSlot.isLoaded),
         BitVec.ofNat 8 (s.chains.pool.toList.countP PoolSlot.isHeld),
         BitVec.ofNat 8 (s.frames.counter.toNat % 256), BitVec.ofNat 8 (s.frames.counter.toNat / 256)]

/-! ## Chapters 7, 8 and 10: the requests on the scanner, the key event queue and the timebase -/

/-- R129, R130, R143: CONFIGURE SCAN: every reported key receives its FORCED_RELEASE, all keys become Idle, the episodes and the repeat end, the
six values are replaced, the raw closures are cleared and the pass timer is loaded; in Doze the lines are armed anew. -/
def Obligations.ConfigureScanReplacesAll : Prop :=
  ∀ (tag : Byte) (payload : List Byte) (s : State), RequestDue 0x30 tag payload s →
    exec .configureScan s = .next (match payload with
      | [d, n, p, c, delay, interval] =>
        if (1 ≤ d.toNat ∧ d.toNat ≤ 10) ∧ (1 ≤ n.toNat ∧ n.toNat ≤ 6) ∧ (2 ≤ p.toNat ∧ p.toNat ≤ 32) ∧
            (1 ≤ c.toNat ∧ c.toNat ≤ 7) ∧ 10 ≤ delay.toNat ∧ 2 ≤ interval.toNat then
          let config : ScanConfig :=
            { drives := d.toNat, senses := n.toNat, period := p.toNat, settle := c.toNat, repeatDelay := delay.toNat,
              repeatInterval := interval.toNat }
          { answeredOnly 0x30 tag 0 [] s with
            keys := { s.keys with events := s.keys.events ++ forcedReleases s }
            scanner := { s.scanner with
              config := config
              states := Vector.replicate 64 .idle
              raw := 0
              passTimer := p.toNat
              owner := none
              repeatTimer := none
              ghost := false
              rollover := false
              armed := if s.power.state = .doze then openLines config s.pins.contacts else s.scanner.armed } }
        else answeredOnly 0x30 tag 3 [] s
      | _ => answeredOnly 0x30 tag 2 [] s)

/-- R36, R127, R141: SET KEY takes two bytes and a key number up to 63, and acts by the Enabled flag before and after and by the key's state. -/
def Obligations.SetKeyActsOnTheKey : Prop :=
  answersBadSize .setKey 0x31 (fun n => n = 2) ∧
  (∀ (tag key flags : Byte) (s : State), 64 ≤ key.toNat → RequestDue 0x31 tag [key, flags] s →
    exec .setKey s = .next (answeredOnly 0x31 tag 3 [] s)) ∧
  ∀ (tag flags : Byte) (k : Fin 64) (s : State), downCount s ≤ 8 → RequestDue 0x31 tag [BitVec.ofNat 8 k.val, flags] s →
    let r : KeyRecord := { enabled := flags.getLsbD 0, repeats := flags.getLsbD 1, wakes := flags.getLsbD 2 }
    let table := s.scanner.table.set k r
    let stopped := if s.scanner.owner = some k ∧ r.repeats = false then none else s.scanner.repeatTimer
    let kept := { s.scanner with table := table, repeatTimer := stopped }
    exec .setKey s = .next
      (if s.scanner.table[k].enabled = true ∧ r.enabled = false ∧ s.scanner.states[k].reported = true then
        { answeredOnly 0x31 tag 0 [] s with
          keys := { s.keys with
            events := s.keys.events ++ [{ kind := .forcedRelease, key := BitVec.ofNat 8 k.val, time := s.time.ticks }] }
          scanner := { s.scanner with
            table := table
            states := s.scanner.states.set k .idle
            owner := if s.scanner.owner = some k then none else s.scanner.owner
            repeatTimer := if s.scanner.owner = some k then none else s.scanner.repeatTimer
            rollover := false } }
      else if s.scanner.table[k].enabled = r.enabled then { answeredOnly 0x31 tag 0 [] s with scanner := kept }
      else { answeredOnly 0x31 tag 0 [] s with scanner := { kept with states := s.scanner.states.set k .idle } })

/-- R147, R153, R154: TAKE KEYS removes and returns the oldest records; FLUSH KEYS returns two counts and empties the queue. R145: GET KEY STATES
returns its 19 bytes, bit by bit, and changes nothing. -/
def Obligations.KeyQueueAndStatesAnswer : Prop :=
  ∀ (tag : Byte) (payload : List Byte) (s : State),
    (RequestDue 0x32 tag payload s → exec .takeKeys s = .next (match payload with
      | [n] =>
        if 1 ≤ n.toNat ∧ n.toNat ≤ 12 then
          let m := min n.toNat s.keys.events.length
          { answeredOnly 0x32 tag 0
              ([BitVec.ofNat 8 m, BitVec.ofNat 8 (s.keys.events.length - m)] ++
                (s.keys.events.take m).flatMap fun e =>
                  [eventKindByte e.kind, e.key, BitVec.ofNat 8 (e.time.toNat % 256), BitVec.ofNat 8 (e.time.toNat / 256)]) s with
            keys := { s.keys with events := s.keys.events.drop m } }
        else answeredOnly 0x32 tag 3 [] s
      | _ => answeredOnly 0x32 tag 2 [] s)) ∧
    (RequestDue 0x33 tag payload s → exec .flushKeys s = .next (match payload with
      | [] =>
        { answeredOnly 0x33 tag 0 [BitVec.ofNat 8 s.keys.events.length, s.keys.dropped] s with
          keys := { events := [], dropped := 0 } }
      | _ => answeredOnly 0x33 tag 2 [] s)) ∧
    (RequestDue 0x34 tag payload s → payload ≠ [] → exec .getKeyStates s = .next (answeredOnly 0x34 tag 2 [] s)) ∧
    (RequestDue 0x34 tag [] s →
      ∃ result : List Byte, exec .getKeyStates s = .next (answeredOnly 0x34 tag 0 result s) ∧ result.length = 19 ∧
        (∀ k : Fin 64, (result.getD (k.val / 8) 0).getLsbD (k.val % 8) = s.scanner.states[k].reported) ∧
        (∀ k : Fin 64, (result.getD (8 + k.val / 8) 0).getLsbD (k.val % 8) = s.scanner.raw.getLsbD k.val) ∧
        result.getD 16 0 = BitVec.ofNat 8 (s.scanner.states.toList.countP KeyState.reported) ∧
        result.getD 17 0 = (match s.scanner.owner with
          | none => 0xFF
          | some k => BitVec.ofNat 8 k.val) ∧
        result.getD 18 0 = (if s.scanner.ghost then 1 else 0) ||| (if s.scanner.rollover then 2 else 0))

/-- R165, R166, R168: READ TIME, SET ALARM and SET LINK WATCH at every payload. -/
def Obligations.TimebaseRequestsAnswer : Prop :=
  ∀ (tag : Byte) (payload : List Byte) (s : State),
    (RequestDue 0x38 tag payload s → exec .readTime s = .next (match payload with
      | [] => answeredOnly 0x38 tag 0
          [BitVec.ofNat 8 (s.time.ticks.toNat % 256), BitVec.ofNat 8 (s.time.ticks.toNat / 256),
           BitVec.ofNat 8 (s.frames.counter.toNat % 256), BitVec.ofNat 8 (s.frames.counter.toNat / 256),
           alarmModeByte s.time.alarmMode,
           BitVec.ofNat 8 (s.time.alarmCount.toNat % 256), BitVec.ofNat 8 (s.time.alarmCount.toNat / 256),
           s.time.watchPeriod, fallbackActionByte s.time.watchAction, linkStateByte s.time.link,
           BitVec.ofNat 8 (s.time.watchCount.toNat % 256), BitVec.ofNat 8 (s.time.watchCount.toNat / 256)] s
      | _ => answeredOnly 0x38 tag 2 [] s)) ∧
    (RequestDue 0x39 tag payload s → exec .setAlarm s = .next (match payload with
      | [m, lo, hi, flags] =>
        let period : Word := hi ++ lo
        if m = 0 then
          { answeredOnly 0x39 tag 0 [] s with
            time := { s.time with
              alarmMode := .off, alarmPeriod := 0, alarmCount := 0, alarmWake := flags.getLsbD 0 } }
        else if (m = 1 ∨ m = 2) ∧ period ≠ 0 then
          { answeredOnly 0x39 tag 0 [] s with
            time := { s.time with
              alarmMode := if m = 1 then .oneShot else .periodic
              alarmPeriod := period
              alarmCount := period
              alarmWake := flags.getLsbD 0 } }
        else answeredOnly 0x39 tag 3 [] s
      | _ => answeredOnly 0x39 tag 2 [] s)) ∧
    (RequestDue 0x3A tag payload s → exec .setLinkWatch s = .next (match payload with
      | [p, a] =>
        if p.toNat ≤ 64 ∧ a.toNat ≤ 2 then
          { answeredOnly 0x3A tag 0 [] s with
            time := { s.time with
              watchPeriod := p
              watchAction := if a = 0 then .none else if a = 1 then .fallback else .fallbackAndShow
              watchCount := if p ≠ 0 ∧ s.time.link = .live then BitVec.ofNat 16 (p.toNat * 100) else 0 } }
        else answeredOnly 0x3A tag 3 [] s
      | _ => answeredOnly 0x3A tag 2 [] s))

/-! ## Section 0.7: steps -/

/-- R1: a step takes the command at the front of the queue of waiting commands and has that command's effect, with the queue's rest. The model's
choice (log entry 2): on an empty queue the part idles. -/
def Obligations.StepTakesFrontCommand : Prop :=
  ∀ (c : Instr) (rest : List Instr) (s : State),
    (s.pending = c :: rest → step s = exec c { s with pending := rest }) ∧ (s.pending = [] → step s = .next s)

/-! ## Chapter 1: the port -/

/-- R6, R8, R179: a write to Link Data is ignored in Starting; elsewhere it is held, in Sleep with a wake step falling due, or it is an overrun
against the byte already held, which marks the parcel that owns that byte. -/
def Obligations.LinkDataWriteIsHeldOrOverruns : Prop :=
  ∀ (value : Byte) (s : State), s.pins.rstLow = false →
    (s.power.state = .starting → exec (.linkDataWrite value) s = .next s) ∧
    (s.power.state ≠ .starting → s.link.holding = none →
      exec (.linkDataWrite value) s = .next
        { s with
          link := { s.link with holding := some value, overrunMet := false }
          power := if s.power.state = .sleep then { s.power with wakeDue := true } else s.power }) ∧
    (∀ held : Byte, s.power.state ≠ .starting → s.link.holding = some held →
      exec (.linkDataWrite value) s = .next
        { s with
          link := { s.link with
            overrunMet := true
            assembler := match s.link.assembler with
              | .awaitLength _ => .awaitLength true
              | .collecting toCome sum _ gap => .collecting toCome sum true gap
              | .hunting gap => .hunting gap }
          notices := { s.notices with sticky := s.notices.sticky ||| BitVec.twoPow 11 2 }
          counters := { s.counters with overrun := counted s.counters.overrun } })

/-- R4, R9, R177: a read of Link Data returns and removes the oldest byte of the ring, or 0 with UNDERRUN where there is none; the read that
empties the ring may complete the entry to Sleep. A read of Link Status returns the six fields and then clears UNDERRUN. That the entry to Sleep drops
the passes that have fallen due (log entry 18) and keeps the value of the stopped pass timer (log entry 4) is the model's choice. -/
def Obligations.PortReadsReturn : Prop :=
  ∀ s : State,
    (s.link.ring = [] → exec .linkDataRead s = .next
      { s with link := { s.link with underrun := true }, pins := { s.pins with data := 0 } }) ∧
    (∀ (b : Byte) (rest : List Byte), Settled s → s.link.ring = b :: rest →
      exec .linkDataRead s =
        .next (sleptIfQuiet { s with link := { s.link with ring := rest }, pins := { s.pins with data := b } })) ∧
    ∃ status : Byte,
      exec .linkStatusRead s = .next
        { s with link := { s.link with underrun := false }, pins := { s.pins with data := status } } ∧
      (status.getLsbD 0 = true ↔ s.link.holding = none ∧ s.power.state ≠ .starting) ∧
      (status.getLsbD 1 = true ↔ s.link.ring ≠ []) ∧
      status.extractLsb' 2 2 = (match s.link.assembler with
        | .awaitLength _ => 0
        | .collecting .. => 1
        | .hunting _ => 2) ∧
      status.getLsbD 4 = s.link.underrun ∧
      (status.getLsbD 5 = true ↔ s.time.link = .lost) ∧
      status.extractLsb' 6 2 = (match s.power.state with
        | .starting => 0
        | .run => 1
        | .sleepPending => 1
        | .doze => 2
        | .sleep => 3)

/-- R5, R23, R24: a RESYNC outside Starting discards the held byte, every slot, the held answer and the ring, and leaves everything else but,
in Sleep-Pending, completes the entry to Sleep; the engine stays Suspended where it is. That the entry to Sleep drops the passes that have fallen due
(log entry 18) and keeps the value of the stopped pass timer (log entry 4) is the model's choice. -/
def Obligations.ResyncClearsTheLink : Prop :=
  ∀ (value : Byte) (s : State), s.pins.rstLow = false → value.getLsbD 0 = true → value.getLsbD 1 = false →
    (s.power.state = .starting → exec (.resync value) s = .next s) ∧
    (s.power.state ≠ .starting →
      exec (.resync value) s = .next (sleptIfQuiet
        { s with
          link := { s.link with holding := none, overrunMet := false, ring := [], assembler := .awaitLength false }
          requests := { slots := [], engine := if s.requests.engine = .suspended then .suspended else .idle } }))

/-- R25, R173, R174, R181, R183: each reset of the power-on kind gives every block its default, with the power state Starting and the reset's
own cause. While RST is low a FULL RESET only sets the cause and no other port write has any effect; the release of RST overwrites nothing.
These are the model's choices and inferences: that a reset leaves the pins alone (log entry 5), the polarity of the first frame (log entry 3), the value
of the stopped pass timer and the unarmed lines (log entry 4), and that the memories are cleared within the reset step (log entry 6). -/
def Obligations.ResetsGiveTheDefaults : Prop :=
  ∀ s : State,
    let fresh : ResetCause → State := fun cause =>
      { State.reset with power := { state := .starting, cause := cause, wakeDue := false }, pins := s.pins, pending := s.pending }
    exec .powerOnReset s = .next (fresh .powerOn) ∧
    (s.pins.rstLow = false →
      exec (.rstPinReset true) s = .next { fresh .rstPin with pins := { s.pins with rstLow := true } } ∧
      ∀ value : Byte, value.getLsbD 1 = true → exec (.fullReset value) s = .next (fresh .fullReset)) ∧
    (s.pins.rstLow = true →
      (∀ value : Byte, value.getLsbD 1 = true →
        exec (.fullReset value) s = .next { s with power := { s.power with cause := .fullReset } }) ∧
      (∀ value : Byte, value.getLsbD 1 = false → exec (.resync value) s = .next s) ∧
      (∀ value : Byte, exec (.linkDataWrite value) s = .next s) ∧
      (∀ (a : PortAddress) (value : Byte), a ≠ 1 →
        exec (.noticeAcknowledge a value) s = .next s ∧ exec (.noticeMask a value) s = .next s) ∧
      exec .endOfStarting s = .next s) ∧
    exec (.rstPinReset false) s = .next { s with pins := { s.pins with rstLow := false } }

/-- R26, R35, R43, R64, R92, R96, R124, R126, R128, R146, R155, R163, R171, R181, R183: what the state after a power-on
reset holds. That the memories read 0 already at the end of the reset step is an inference (log entry 6); that a stopped sequencer has no next row is the
model's form of it (log entry 15). -/
def Obligations.ResetStateHoldsTheDefaults : Prop :=
  let s := State.reset
  (s.power.state = .starting ∧ s.power.cause = .powerOn) ∧
  (s.link.holding = none ∧ s.link.ring = [] ∧ s.link.underrun = false ∧ s.link.assembler = .awaitLength false) ∧
  (s.requests.slots = [] ∧ s.requests.engine = .idle) ∧
  s.counters = { overrun := 0, framing := 0, reject := 0, lateFrame := 0, lostKey := 0 } ∧
  (∀ cell, memRead s.canvas.pixels cell = 0 ∧ memRead s.canvas.attributes cell = 0 ∧ memRead s.staging cell = 0) ∧
  (s.canvas.cursor = 0 ∧ s.canvas.step = .forward) ∧
  (∀ (t : ViewTable) (i : Fin 4),
    let v := (s.views.table t)[i]
    viewRecordBytes v.record = [0, 0, 0, 8, 8, 0, 0, 0, 0, 255, 127, 0, 0, 0, 0] ∧ v.verticalCount = 0 ∧ v.horizontalCount = 0) ∧
  (s.views.backdrop = false ∧ s.views.source = .primary) ∧
  (s.panel.columns = 128 ∧ s.panel.rows = 64 ∧ s.panel.frameRate = 70 ∧ s.panel.contrast = 16 ∧ s.panel.mode = .off ∧
    s.panel.drive = .grounded) ∧
  (s.panel.snapshot.mode = .off ∧ s.panel.snapshot.source = .primary ∧ s.panel.snapshot.backdrop = false ∧
    s.panel.snapshot.phase = .shown ∧
    ∀ i : Fin 4,
      viewRecordBytes s.panel.snapshot.primary[i] = [0, 0, 0, 8, 8, 0, 0, 0, 0, 255, 127, 0, 0, 0, 0] ∧
      viewRecordBytes s.panel.snapshot.fallback[i] = [0, 0, 0, 8, 8, 0, 0, 0, 0, 255, 127, 0, 0, 0, 0]) ∧
  (s.frames.counter = 0 ∧ s.frames.blinkPeriod = 32 ∧ s.frames.blinkCount = 0 ∧ s.frames.blinkPhase = .shown ∧
    s.frames.row = none ∧ s.frames.resuming = false) ∧
  ((∀ i : Fin 32, s.chains.pool[i] = .free) ∧ s.chains.queue = [] ∧ s.chains.outcomes = [] ∧ s.chains.lastMark = 0 ∧
    s.chains.lastHandle = 0) ∧
  s.scanner.config = { drives := 10, senses := 6, period := 8, settle := 3, repeatDelay := 50, repeatInterval := 10 } ∧
  (∀ k : Fin 64, s.scanner.states[k] = .idle ∧
    s.scanner.table[k] = { enabled := true, repeats := decide (k.val ≤ 59), wakes := false }) ∧
  (s.scanner.raw = 0 ∧ s.scanner.owner = none ∧ s.scanner.repeatTimer = none ∧ s.scanner.ghost = false ∧
    s.scanner.rollover = false) ∧
  (s.keys.events = [] ∧ s.keys.dropped = 0) ∧
  (portRead 2 s = 0 ∧ portRead 3 s = 0 ∧ portRead 4 s = 1 ∧ portRead 5 s = 0 ∧ portRead 6 s = 0 ∧ portRead 7 s = 0x4B) ∧
  (s.time.ticks = 0 ∧ s.time.alarmMode = .off ∧ s.time.alarmPeriod = 0 ∧ s.time.alarmWake = false ∧ s.time.alarmCount = 0 ∧
    s.time.watchPeriod = 0 ∧ s.time.watchAction = .none ∧ s.time.watchCount = 0 ∧ s.time.link = .live)

/-! ## Chapter 9: the notices -/

/-- R3, R158, R160: an acknowledge clears exactly the sticky notices written as 1; a mask write replaces exactly the mask bits of its address;
a write to address 6 or 7 is ignored. -/
def Obligations.NoticePortWritesAct : Prop :=
  ∀ (value : Byte) (s : State),
    (s.pins.rstLow = false → ∃ low high maskLow maskHigh : BitVec 11,
      exec (.noticeAcknowledge 2 value) s = .next { s with notices := { s.notices with sticky := low } } ∧
      exec (.noticeAcknowledge 3 value) s = .next { s with notices := { s.notices with sticky := high } } ∧
      exec (.noticeMask 4 value) s = .next { s with notices := { s.notices with mask := maskLow } } ∧
      exec (.noticeMask 5 value) s = .next { s with notices := { s.notices with mask := maskHigh } } ∧
      ∀ n, n < 11 →
        low.getLsbD n = (s.notices.sticky.getLsbD n && !(decide (n < 8 ∧ n ≠ 4 ∧ n ≠ 5) && value.getLsbD n)) ∧
        high.getLsbD n = (s.notices.sticky.getLsbD n && !(decide (8 ≤ n) && value.getLsbD (n - 8))) ∧
        maskLow.getLsbD n = (if n < 8 then value.getLsbD n else s.notices.mask.getLsbD n) ∧
        maskHigh.getLsbD n = (if 8 ≤ n then value.getLsbD (n - 8) else s.notices.mask.getLsbD n)) ∧
    exec (.ignoredPortWrite 6 value) s = .next s ∧ exec (.ignoredPortWrite 7 value) s = .next s

/-- R2, R3, R157, R160, R161, R162: port address 7 reads 0x4B in every state, and addresses 4 and 5 read the mask; the two level notices follow their conditions; ATTN is asserted exactly while some notice is set and unmasked; Top Notice is
the number plus 1 of the lowest such notice, or 0. -/
def Obligations.LatchAttnAndTopNoticeAgree : Prop :=
  ∀ s : State,
    let isSet := fun n => if n < 8 then (portRead 2 s).getLsbD n else (portRead 3 s).getLsbD (n - 8)
    let unmasked := fun n => if n < 8 then (portRead 4 s).getLsbD n else (portRead 5 s).getLsbD (n - 8)
    portRead 7 s = 0x4B ∧ (∀ n, n < 11 → unmasked n = s.notices.mask.getLsbD n) ∧
    (∀ n, n < 11 → n ≠ 4 → n ≠ 5 → isSet n = s.notices.sticky.getLsbD n) ∧
    (isSet 4 = true ↔ s.keys.events ≠ []) ∧ (isSet 5 = true ↔ s.link.ring ≠ []) ∧
    (attn s = true ↔ ∃ n, n < 11 ∧ isSet n = true ∧ unmasked n = true) ∧
    (portRead 6 s = 0 ↔ attn s = false) ∧
    ∀ n, n < 11 → isSet n = true → unmasked n = true → (∀ m, m < n → ¬ (isSet m = true ∧ unmasked m = true)) →
      (portRead 6 s).toNat = n + 1

/-! ## Chapter 1: the Parcel Assembler -/

/-- R7, R13, R14, R178: a byte taken in Await Length, with a Free slot: a legal Length allocates a Filling slot behind the others and consumes
the pre-mark, and in Sleep-Pending it abandons the pending sleep; an illegal one sets LINK_FAULT, is counted, and Hunting begins. -/
def Obligations.LengthByteIsTaken : Prop :=
  ∀ (b : Byte) (preMark : Bool) (s : State), Settled s → s.link.holding = some b → s.link.assembler = .awaitLength preMark →
    s.requests.slots.length < 4 → (s.power.state = .run ∨ s.power.state = .doze ∨ s.power.state = .sleepPending) →
    let begun : State :=
      { s with
        link := { s.link with holding := none, overrunMet := false, assembler := .collecting b.toNat b preMark 20 }
        requests := { s.requests with slots := s.requests.slots ++ [{ stage := .filling, stored := [] }] } }
    (3 ≤ b.toNat ∧ b.toNat ≤ 63 → s.power.state ≠ .sleepPending → exec .byteTaken s = .next begun) ∧
    (3 ≤ b.toNat ∧ b.toNat ≤ 63 → s.power.state = .sleepPending →
      exec .byteTaken s = .next (withReject
        { begun with
          power := { s.power with state := .run }
          requests := { begun.requests with engine := .idle } })) ∧
    (¬ (3 ≤ b.toNat ∧ b.toNat ≤ 63) →
      exec .byteTaken s = .next
        { s with
          link := { s.link with holding := none, overrunMet := false, assembler := .hunting 20 }
          notices := { s.notices with sticky := s.notices.sticky ||| BitVec.twoPow 11 2 }
          counters := { s.counters with framing := counted s.counters.framing } })

/-- R7, R15, R18: a byte taken in Collecting that is not the last is stored and summed and reloads the gap timer; one taken in Hunting is
discarded and reloads it. Where the assembler is not able to take a byte nothing happens (the last clause is the model's form of 'not due', log
entry 1). -/
def Obligations.BytesAreCollectedDiscardedOrWait : Prop :=
  ∀ (b : Byte) (s : State), Settled s →
    (∀ (toCome gap : Nat) (sum : Byte) (damaged : Bool) (front : List Slot) (stored : List Byte),
      s.link.holding = some b → (s.power.state = .run ∨ s.power.state = .doze ∨ s.power.state = .sleepPending) →
      s.link.assembler = .collecting toCome sum damaged gap → 2 ≤ toCome →
      s.requests.slots = front ++ [{ stage := .filling, stored := stored }] → (∀ slot ∈ front, slot.stage ≠ .filling) →
      exec .byteTaken s = .next
        { s with
          link := { s.link with
            holding := none, overrunMet := false, assembler := .collecting (toCome - 1) (sum + b) damaged 20 }
          requests := { s.requests with slots := front ++ [{ stage := .filling, stored := stored ++ [b] }] } }) ∧
    (∀ gap : Nat, s.link.holding = some b → (s.power.state = .run ∨ s.power.state = .doze ∨ s.power.state = .sleepPending) →
      s.link.assembler = .hunting gap →
      exec .byteTaken s = .next
        { s with link := { s.link with holding := none, overrunMet := false, assembler := .hunting 20 } }) ∧
    (s.link.holding = none ∨ s.power.state = .starting ∨ s.power.state = .sleep ∨
        (4 ≤ s.requests.slots.length ∧ ∃ preMark, s.link.assembler = .awaitLength preMark) →
      exec .byteTaken s = .next s)

/-- R12, R16, R32, R169, R177: the byte that completes a parcel: a Good parcel leaves its slot Waiting, makes the link Live and restarts the
watch; a malformed one is Rejected with its lowest reason and counted, and its REJECT is built at once where its turn has come; in Sleep-Pending
the completion may let Sleep be entered. That this entry drops the passes that have fallen due (log entry 18) and keeps the value of the stopped pass
timer (log entry 4) is the model's choice. -/
def Obligations.LastByteCompletesTheParcel : Prop :=
  ∀ (b sum : Byte) (gap : Nat) (damaged : Bool) (front : List Slot) (stored : List Byte) (s : State), Settled s →
    s.link.holding = some b → (s.power.state = .run ∨ s.power.state = .doze ∨ s.power.state = .sleepPending) →
    s.link.assembler = .collecting 1 sum damaged gap → s.requests.slots = front ++ [{ stage := .filling, stored := stored }] →
    (∀ slot ∈ front, slot.stage ≠ .filling) → 2 ≤ stored.length →
    let ended : SlotStage → State := fun stage =>
      { s with
        link := { s.link with holding := none, overrunMet := false, assembler := .awaitLength false }
        requests := { s.requests with slots := front ++ [{ stage := stage, stored := stored ++ [b] }] } }
    let refused : RejectReason → State := fun reason =>
      sleptIfQuiet (withReject
        { ended (.waitingRejected reason) with counters := { s.counters with reject := counted s.counters.reject } })
    (sum + b ≠ 0 → exec .byteTaken s = .next (refused .sum)) ∧
    (sum + b = 0 → damaged = true → exec .byteTaken s = .next (refused .overrun)) ∧
    (sum + b = 0 → damaged = false → 0x80 ≤ (stored.getD 0 0).toNat → exec .byteTaken s = .next (refused .direction)) ∧
    (sum + b = 0 → damaged = false → (stored.getD 0 0).toNat < 0x80 →
      exec .byteTaken s = .next (sleptIfQuiet
        { ended .waitingGood with
          time := { s.time with
            link := .live
            watchCount :=
              if s.time.watchPeriod = 0 then s.time.watchCount else BitVec.ofNat 16 (s.time.watchPeriod.toNat * 100) } }))

/-! ## Chapters 1 and 2: parcels, execution and posting -/

/-- R10, R11, R12: a parcel that the part sends stands in its bytes as Length, Kind, Tag, payload, Check; its Length counts what follows it and its
check sum is 0. -/
def Obligations.SentParcelsAreWellFormed : Prop :=
  ∀ (kind tag : Byte) (payload : List Byte), payload.length ≤ 60 →
    ∃ check : Byte,
      parcel kind tag payload = [BitVec.ofNat 8 (payload.length + 3), kind, tag] ++ payload ++ [check] ∧
      byteSum (parcel kind tag payload) = 0 ∧
      ((parcel kind tag payload).headD 0).toNat + 1 = (parcel kind tag payload).length

/-- R11, R30, R36, R37: every execution step of a request of the catalogue ends with the front slot and the engine in Replying and one REPLY held,
whose bytes carry the request's Kind and Tag; a request whose outcome is not DONE changes nothing else, and has no result bytes unless its
outcome is INVALID_CHAIN. -/
def Obligations.EveryRequestAnswersOnce : Prop :=
  ∀ (c : Instr) (kind tag : Byte) (payload : List Byte) (s : State), requestCode c = some kind → RequestDue kind tag payload s →
    ∃ (t : State) (code : Byte) (result : List Byte) (effect : PostEffect),
      exec c s = .next t ∧ t.requests = replyHeld kind tag code result effect s.requests ∧ code.toNat ≤ 9 ∧ code ≠ 1 ∧
      result.length ≤ 58 ∧ (code ≠ 0 → t = answeredOnly kind tag code result s ∧ effect = .nothing) ∧
      (code ≠ 0 → code ≠ 8 → result = []) ∧
      t.link = s.link ∧ t.pins = s.pins ∧ t.pending = s.pending ∧ t.time.ticks = s.time.ticks ∧
      t.frames.counter = s.frames.counter ∧ t.panel.snapshot = s.panel.snapshot

/-- R28, R30, R39: a request of a Kind outside the catalogue is answered UNKNOWN_KIND and has no effect. Where no execution step is due, or the
front slot holds a request of another Kind, the command changes nothing (the model's form of 'not due', log entry 1). -/
def Obligations.RequestsWaitOrAreUnknown : Prop :=
  (∀ (kind tag : Byte) (payload : List Byte) (s : State), RequestDue kind tag payload s →
    ((∃ c, requestCode c = some kind) → exec .unknownKindRequest s = .next s) ∧
    ((∀ c, requestCode c ≠ some kind) → exec .unknownKindRequest s = .next (answeredOnly kind tag 1 [] s)) ∧
    ∀ (c : Instr) (other : Byte), requestCode c = some other → other ≠ kind → exec c s = .next s) ∧
  ∀ (c : Instr) (s : State), c = .unknownKindRequest ∨ (∃ kind, requestCode c = some kind) →
    (s.requests.engine ≠ .idle ∨ (s.power.state ≠ .run ∧ s.power.state ≠ .doze) ∨
      (∀ front rest, s.requests.slots = front :: rest → front.stage ≠ .waitingGood)) →
    exec c s = .next s

/-- R20, R21, R32, R33: a held answer is appended whole to the ring where there is room for all of its bytes; its slot is freed, the engine
becomes Idle, and a Rejected slot whose turn has come has its REJECT built; without room, or without a held answer, nothing happens. -/
def Obligations.PostingAppendsTheWholeAnswer : Prop :=
  ∀ s : State,
    (∀ a : Answer, s.requests.engine = .replying a → 192 < s.link.ring.length + a.bytes.length → exec .posting s = .next s) ∧
    ((∀ a : Answer, s.requests.engine ≠ .replying a) → exec .posting s = .next s) ∧
    ∀ (a : Answer) (front : Slot) (rest : List Slot), s.requests.engine = .replying a → s.requests.slots = front :: rest →
      s.link.ring.length + a.bytes.length ≤ 192 → a.effect = .nothing → (s.power.state = .run ∨ s.power.state = .doze) →
      exec .posting s = .next (withReject
        { s with
          link := { s.link with ring := s.link.ring ++ a.bytes }
          requests := { slots := rest, engine := .idle } })

/-- R35, R124, R146, R155, R163, R171, R181, R182, R183: the posting of the RESTART REPLY makes the warm reset: the Waiting slots behind it
are freed, the key states, the key event queue, the chain queue, the sticky notices and the timebase but its tick counter take their reset values,
Held slots return to Loaded, the reset cause becomes 4; everything else is kept. -/
def Obligations.PostingOfRestartResetsWarm : Prop :=
  ∀ (a : Answer) (front : Slot) (rest : List Slot) (s : State), s.requests.engine = .replying a →
    s.requests.slots = front :: rest → s.link.ring.length + a.bytes.length ≤ 192 → a.effect = .warmReset →
    (s.power.state = .run ∨ s.power.state = .doze) →
    (∀ slot ∈ rest, slot.stage = .filling ∨ slot.stage = .waitingGood ∨ ∃ reason, slot.stage = .waitingRejected reason) →
    ∃ pool : Vector PoolSlot 32,
      (∀ i : Fin 32, pool[i] = match s.chains.pool[i] with
        | .held _ d => .loaded d
        | other => other) ∧
      exec .posting s = .next
        { s with
          link := { s.link with ring := s.link.ring ++ a.bytes }
          requests := { slots := rest.filter fun slot => slot.stage == .filling, engine := .idle }
          chains := { s.chains with pool := pool, queue := [] }
          scanner := { s.scanner with
            states := Vector.replicate 64 .idle, owner := none, repeatTimer := none, ghost := false, rollover := false }
          keys := { events := [], dropped := 0 }
          notices := { s.notices with sticky := 0 }
          time :=
            { ticks := s.time.ticks, alarmMode := .off, alarmPeriod := 0, alarmWake := false, alarmCount := 0,
              watchPeriod := 0, watchAction := .none, watchCount := 0, link := .live }
          power := { s.power with cause := .restart } }

/-- R33, R34, R130, R142, R175, R177: the posting of the ENTER DOZE REPLY enters Doze; that of the ENTER SLEEP REPLY makes the power state
Sleep-Pending and suspends the engine. That passes which have fallen due are dropped (log entry 18) and that the stopped pass timer keeps its value
(log entry 4) is the model's choice. -/
def Obligations.PostingLeavesRun : Prop :=
  ∀ (a : Answer) (front : Slot) (rest : List Slot) (s : State), s.requests.engine = .replying a →
    s.requests.slots = front :: rest → s.link.ring.length + a.bytes.length ≤ 192 → a.bytes ≠ [] → s.power.state = .run →
    let posted : EngineState → State := fun engine =>
      { s with
        link := { s.link with ring := s.link.ring ++ a.bytes }
        requests := { slots := rest, engine := engine } }
    (a.effect = .enterDoze → exec .posting s = .next (withReject (lowered .doze (posted .idle)))) ∧
    (a.effect = .enterSleep →
      exec .posting s = .next { posted .suspended with power := { s.power with state := .sleepPending } })

/-! ## Chapter 11: Sleep and the return to Run -/

/-- R177: Sleep is entered exactly where the three entry conditions hold in Sleep-Pending. R32, R34, R144, R171, R173, R179, R180: a wake step that
is due returns the part to Run from Sleep or Doze, with WAKE set, the engine resumed and from Sleep the watch reloaded; the end of Starting does
so with STARTED set. These are the model's choices: where a command is not due it changes nothing (log entry 1); no line is armed after the return, and
the stopped pass timer keeps its value (log entry 4); the entry to Sleep drops the passes that have fallen due (log entry 18). An engine that holds a
parcel in Doze keeps it (log entry 31). -/
def Obligations.SleepIsEnteredAndLeft : Prop :=
  ∀ s : State,
    (s.power.state = .sleepPending → s.link.ring = [] → (∃ preMark, s.link.assembler = .awaitLength preMark) →
      s.link.holding = none → exec .sleepEntry s = .next (lowered .sleep s)) ∧
    (s.power.state ≠ .sleepPending ∨ s.link.ring ≠ [] ∨ (∀ preMark, s.link.assembler ≠ .awaitLength preMark) ∨
      s.link.holding ≠ none → exec .sleepEntry s = .next s) ∧
    ((s.power.state = .doze ∨ s.power.state = .sleep) → s.power.wakeDue = true →
      exec .wakeStep s = .next (withReject
        { resumed s with
          notices := { s.notices with sticky := s.notices.sticky ||| BitVec.twoPow 11 3 }
          requests := { s.requests with engine := if s.requests.engine = .suspended then .idle else s.requests.engine }
          time :=
            if s.power.state = .sleep ∧ s.time.watchPeriod ≠ 0 ∧ s.time.link = .live then
              { s.time with watchCount := BitVec.ofNat 16 (s.time.watchPeriod.toNat * 100) }
            else s.time })) ∧
    (s.power.wakeDue = false ∨ (s.power.state ≠ .doze ∧ s.power.state ≠ .sleep) → exec .wakeStep s = .next s) ∧
    (s.power.state = .starting → s.pins.rstLow = false →
      exec .endOfStarting s = .next
        { resumed s with notices := { s.notices with sticky := s.notices.sticky ||| BitVec.twoPow 11 0 } }) ∧
    (s.power.state ≠ .starting → exec .endOfStarting s = .next s)

/-! ## Chapters 4, 5 and 6: the frame boundary -/

/-- R85, R87 to R92, R95: the boundary: a late one is counted, the engine is Suspended, the counter, the blink state and the scroll of both tables
advance, the due chains are applied, FRAME is set, the snapshot is taken, a frame is opened at row 0, and the engine returns to the
state it left. An ordinary boundary is not taken while a resuming one is due or a row of the frame that it ends is not yet scanned (no row is
skipped), nor a resuming one where none is due: the command then changes nothing (log entry 1). Between a boundary
and row 0 no row is selected (the model's choice, log entry 7). -/
def Obligations.BoundaryRunsItsNineSteps : Prop :=
  ∀ (waited : Bool) (s : State), Settled s → (s.power.state = .run ∨ s.power.state = .sleepPending) →
    let rowOwed := s.panel.snapshot.mode ≠ .off ∧ ∃ r, s.frames.row = some r ∧ r < s.panel.rows.toNat
    let wraps := s.frames.blinkCount + 1 = s.frames.blinkPeriod
    let advanced : Byte → State := fun late =>
      { s with
        counters := { s.counters with lateFrame := late }
        requests := { s.requests with engine := .suspended }
        frames := { s.frames with
          counter := s.frames.counter + 1
          blinkCount := if wraps then 0 else s.frames.blinkCount + 1
          blinkPhase := if wraps then (if s.frames.blinkPhase = .shown then .hidden else .shown) else s.frames.blinkPhase }
        views := { s.views with
          primary := Vector.ofFn fun i => scrollView s.views.primary[i]
          fallback := Vector.ofFn fun i => scrollView s.views.fallback[i] } }
    let opened : State → State := fun t =>
      { t with
        requests := { t.requests with engine := s.requests.engine }
        notices := { t.notices with sticky := t.notices.sticky ||| BitVec.twoPow 11 9 }
        panel := { t.panel with
          snapshot :=
            { primary := Vector.ofFn fun i => t.views.primary[i].record
              fallback := Vector.ofFn fun i => t.views.fallback[i].record
              source := t.views.source, backdrop := t.views.backdrop, mode := t.panel.mode, phase := t.frames.blinkPhase }
          drive := if t.panel.mode = .off then .grounded else .unselected }
        frames := { t.frames with row := some 0, resuming := false, polarity := !t.frames.polarity } }
    let late := if waited then counted s.counters.lateFrame else s.counters.lateFrame
    (s.frames.resuming = false → ¬ rowOwed → exec (.frameBoundary waited) s = .next (opened (applyDueChains (advanced late)))) ∧
    (s.frames.resuming = true →
      exec .resumingBoundary s = .next (opened (applyDueChains (advanced s.counters.lateFrame)))) ∧
    (s.frames.resuming = true ∨ rowOwed → exec (.frameBoundary waited) s = .next s) ∧
    (s.frames.resuming = false → exec .resumingBoundary s = .next s)

/-- R117, R118, R119, R120: the chains due at the frame counter's value are applied whole, one after another in queue order, and CHAIN_DONE is set if
there was one. Each runs the actions of its slots in chain order, frees the slots whose Release flag is set and returns the others to
Loaded, leaves the queue and records its outcome with its skipped count, which counts the actions that are skipped in the state that the ones before
them left. -/
def Obligations.DueChainsAreApplied : Prop :=
  ∀ s : State, HoldsGood s →
    ((∀ c ∈ s.chains.queue, c.due ≠ s.frames.counter) → applyDueChains s = s) ∧
    ∀ (front back : List PendingChain) (c : PendingChain), s.chains.queue = front ++ c :: back →
      (∀ x ∈ front, x.due ≠ s.frames.counter) → c.due = s.frames.counter →
      let slots := chainSlots s.chains.pool 32 c.head
      let actions := slots.filterMap fun i => (slotRecord s.chains.pool[i]).map fun d => d.action
      let u := actions.foldl (fun t a => applyAction a t) s
      let left := fun j => (actions.take j).foldl (fun t a => applyAction a t) s
      let skipped := (List.range actions.length).countP fun j => actions[j]?.any fun a => actionSkipped a (left j)
      ∃ pool : Vector PoolSlot 32,
        (∀ i : Fin 32, pool[i] = match s.chains.pool[i] with
          | .held g d => if g = c.handle then (if d.release then .free else .loaded d) else .held g d
          | other => other) ∧
        u.chains.pool = s.chains.pool ∧ u.chains.queue = s.chains.queue ∧ u.chains.outcomes = s.chains.outcomes ∧
        let applied : State :=
          { u with chains := { u.chains with
              pool := pool
              queue := front ++ back
              outcomes := outcomesWith
                { handle := c.handle, result := if skipped = 0 then .completed else .partly, skipped := skipped }
                u.chains.outcomes } }
        let rest := applyDueChains applied
        applyDueChains s =
          { rest with notices := { rest.notices with sticky := rest.notices.sticky ||| BitVec.twoPow 11 6 } }

/-- R45, R49, R105 to R108: a COPY, a FILL and an ATTRIBUTE on a canvas in its canonical form: what every cell of the rectangle holds afterwards;
no other cell, and nothing outside the canvas, changes. R64, R109, R110, R111: an ORIGIN inside the band moves the view's origin and sets both
scroll counters to 0, and one outside it is skipped, as no other action ever is; a VISIBILITY changes the Enabled flag alone; a MARK stores its value and sets CHAIN_MARK. -/
def Obligations.ChainActionsHaveTheirEffect : Prop :=
  (∀ (r : Rectangle) (m : AttributeMode) (a x y : AttributeSet) (offset : Word) (pattern : Byte) (s : State), r.legal →
    s.canvas.pixels.wf = true → s.canvas.attributes.wf = true →
    let cell := fun i j => (r.row.toNat + i) * 32 + (r.column.toNat + j)
    let outside := fun n => ∀ i j, i < r.height.toNat → j < r.width.toNat → n ≠ cell i j
    let mode := fun old : Byte => if m = .apply then attributesByte a else old
    (∃ canvas : Canvas, applyAction (.copy offset r m a) s = { s with canvas := canvas } ∧
      canvas.cursor = s.canvas.cursor ∧ canvas.step = s.canvas.step ∧
      (∀ i j, i < r.height.toNat → j < r.width.toNat →
        memRead canvas.pixels (cell i j) = memRead s.staging (offset.toNat + i * r.width.toNat + j) ∧
        memRead canvas.attributes (cell i j) = mode (memRead s.canvas.attributes (cell i j))) ∧
      ∀ n, outside n → memRead canvas.pixels n = memRead s.canvas.pixels n ∧
        memRead canvas.attributes n = memRead s.canvas.attributes n) ∧
    (∃ canvas : Canvas, applyAction (.fill r pattern m a) s = { s with canvas := canvas } ∧
      canvas.cursor = s.canvas.cursor ∧ canvas.step = s.canvas.step ∧
      (∀ i j, i < r.height.toNat → j < r.width.toNat →
        memRead canvas.pixels (cell i j) = pattern ∧
        memRead canvas.attributes (cell i j) = mode (memRead s.canvas.attributes (cell i j))) ∧
      ∀ n, outside n → memRead canvas.pixels n = memRead s.canvas.pixels n ∧
        memRead canvas.attributes n = memRead s.canvas.attributes n) ∧
    ∃ attributes : Memory,
      applyAction (.attributes r x y) s = { s with canvas := { s.canvas with attributes := attributes } } ∧
      (∀ i j, i < r.height.toNat → j < r.width.toNat → ∀ flag, flag < 8 →
        (memRead attributes (cell i j)).getLsbD flag =
          (decide (flag < 3) &&
            (x.getLsbD flag || ((memRead s.canvas.attributes (cell i j)).getLsbD flag && !y.getLsbD flag)))) ∧
      ∀ n, outside n → memRead attributes n = memRead s.canvas.attributes n) ∧
  ∀ (t : ViewTable) (i : Fin 4) (x y value : Byte) (enabled : Bool) (s : State),
    let v := (s.views.table t)[i]
    let inside := (v.record.bandLeft.toNat ≤ x.toNat ∧ x.toNat ≤ v.record.bandRight.toNat) ∧
      v.record.bandTop.toNat ≤ y.toNat ∧ y.toNat ≤ v.record.bandBottom.toNat
    (inside → actionSkipped (.origin t i x y) s = false ∧
      applyAction (.origin t i x y) s =
        { s with
          views := s.views.setView t i
            { record := { v.record with originX := x, originY := y }, verticalCount := 0, horizontalCount := 0 } }) ∧
    (¬ inside → actionSkipped (.origin t i x y) s = true ∧ applyAction (.origin t i x y) s = s) ∧
    applyAction (.visibility t i enabled) s =
      { s with
        views := s.views.setView t i { v with record := { v.record with enabled := enabled } } } ∧
    applyAction (.mark value) s =
      { s with
        chains := { s.chains with lastMark := value }
        notices := { s.notices with sticky := s.notices.sticky ||| BitVec.twoPow 11 7 } } ∧
    ∀ a : Action, (∀ (table : ViewTable) (view : Fin 4) (column row : Byte), a ≠ .origin table view column row) →
      actionSkipped a s = false

/-- R74, R75, R76: auto-scroll of a good view: a disabled view and a rate of 0 change nothing; a counter that reaches its rate becomes 0 and the
origin moves one pixel, from one edge of the band to the other; a counter below it only counts. -/
def Obligations.AutoScrollMovesWithinTheBand : Prop :=
  ∀ v : View, View.good v →
    let r := v.record
    let up := if r.originY = r.bandBottom then r.bandTop else r.originY + 1
    let down := if r.originY = r.bandTop then r.bandBottom else r.originY - 1
    let left := if r.originX = r.bandRight then r.bandLeft else r.originX + 1
    let right := if r.originX = r.bandLeft then r.bandRight else r.originX - 1
    let movesY := r.verticalRate ≠ 0 ∧ v.verticalCount.toNat + 1 = r.verticalRate.toNat
    let movesX := r.horizontalRate ≠ 0 ∧ v.horizontalCount.toNat + 1 = r.horizontalRate.toNat
    scrollView v =
      if r.enabled then
        { record := { r with
            originY := if movesY then (if r.verticalDirection = .up then up else down) else r.originY
            originX := if movesX then (if r.horizontalDirection = .left then left else right) else r.originX }
          verticalCount := if r.verticalRate = 0 ∨ movesY then 0 else v.verticalCount + 1
          horizontalCount := if r.horizontalRate = 0 ∨ movesX then 0 else v.horizontalCount + 1 }
      else v

/-- R58, R81, R84, R93: the scan-out of the row that is due selects its common at the present contrast and drives each of the 160 segments: at the
unselected level beyond the configured columns, off in Blank, on in Test, with the composed value in Show. Without such a row nothing
changes (the model's form of 'not due', log entry 1), and in Starting, Doze and Sleep no row and no boundary is taken (R94). -/
def Obligations.RowIsScannedOut : Prop :=
  ∀ s : State,
    (∀ r : Nat, s.frames.row = some r → (s.power.state = .run ∨ s.power.state = .sleepPending) →
      r < s.panel.rows.toNat → s.panel.snapshot.mode ≠ .off →
      ∃ levels : List SegmentLevel,
        exec .rowScanOut s = .next
          { s with
            panel := { s.panel with drive := .row r s.panel.contrast levels }
            frames := { s.frames with row := some (r + 1) } } ∧
        levels.length = 160 ∧
        ∀ px, px < 160 → levels[px]? = some
          (if s.panel.columns.toNat ≤ px then .unselected
          else if s.panel.snapshot.mode = .test then .on
          else if s.panel.snapshot.mode = .showing ∧ composedValue s px r = true then .on
          else .off)) ∧
    (s.panel.snapshot.mode = .off ∨ s.frames.row = none ∨ (∃ r, s.frames.row = some r ∧ s.panel.rows.toNat ≤ r) →
      exec .rowScanOut s = .next s) ∧
    (s.power.state = .starting ∨ s.power.state = .doze ∨ s.power.state = .sleep → ∀ waited : Bool,
      exec .rowScanOut s = .next s ∧ exec (.frameBoundary waited) s = .next s ∧ exec .resumingBoundary s = .next s)

/-- R45, R46, R69 to R73: the composed value of a panel pixel: the backdrop where no enabled view of the snapshot's source covers it; else the
canvas pixel that the lowest covering view shows there, wrapped in its band, with the two inversions and then the two blankings. -/
def Obligations.PixelIsComposed : Prop :=
  ∀ (px py : Nat) (s : State),
    let p := s.panel.snapshot
    let view := fun i : Fin 4 => match p.source with
      | .primary => p.primary[i]
      | .fallback => p.fallback[i]
    let covers := fun i : Fin 4 => (view i).enabled = true ∧
      ((view i).left.toNat ≤ px ∧ px < (view i).left.toNat + (view i).width.toNat) ∧
      (view i).top.toNat ≤ py ∧ py < (view i).top.toNat + (view i).height.toNat
    ((∀ i, ¬ covers i) → composedValue s px py = p.backdrop) ∧
    ∀ i : Fin 4, covers i → (∀ j : Fin 4, j < i → ¬ covers j) → (view i).legal = true →
      ∃ x y : Nat, (∃ turns, x + turns * ((view i).bandRight.toNat - (view i).bandLeft.toNat + 1) =
          (view i).originX.toNat + (px - (view i).left.toNat)) ∧
        (∃ turns, y + turns * ((view i).bandBottom.toNat - (view i).bandTop.toNat + 1) =
          (view i).originY.toNat + (py - (view i).top.toNat)) ∧
        ((view i).bandLeft.toNat ≤ x ∧ x ≤ (view i).bandRight.toNat) ∧
        ((view i).bandTop.toNat ≤ y ∧ y ≤ (view i).bandBottom.toNat) ∧
        let pixel := (memRead s.canvas.pixels (y * 32 + x / 8)).getLsbD (7 - x % 8)
        let flags := memRead s.canvas.attributes (y * 32 + x / 8)
        composedValue s px py =
          if flags.getLsbD 0 = true ∧ p.phase = .hidden then false
          else if flags.getLsbD 2 = true ∧ s.frames.counter.toNat % 2 = 1 then false
          else (pixel ^^ flags.getLsbD 1) ^^ (view i).inverse

/-! ## Chapter 10: the ticks -/

/-- R15, R17, R18, R131, R164: a tick advances the tick counter, the gap timer, in Run and Sleep-Pending the pass timer, the alarm and the watch.
A gap timer that runs out in Collecting abandons the parcel with LINK_FAULT and a count; in Hunting it ends Hunting; either may let
Sleep be entered. Whatever ends at a tick, the gap timer, the alarm and the watch are served in that order, and Sleep may be entered at its
end. No tick is taken in Starting or Sleep. These are the model's choices: the entry to Sleep drops the passes that have fallen due (log entry 18), and it
keeps the value of the stopped pass timer, as no line is armed after the return from Doze (log entry 4); an engine that holds a parcel keeps it through
that return (log entry 31); a command for a timer that does not end changes nothing (log entries 1 and 10). That a One-shot alarm keeps its Wake flag at
its expiry is an inference (log entry 24). -/
def Obligations.TickServesItsTimers : Prop :=
  ∀ s : State, Settled s →
    (s.power.state = .starting ∨ s.power.state = .sleep → exec .tick s = .next s) ∧
    ((s.power.state = .run ∨ s.power.state = .sleepPending ∨ s.power.state = .doze) → ¬ alarmAtEnd s → ¬ watchAtEnd s →
      (gapRuns s.link.assembler →
        exec .tick s = .next (ticked s) ∧ exec .gapTimeout s = .next s ∧ exec .huntingEnd s = .next s) ∧
      (∀ (toCome : Nat) (sum : Byte) (damaged : Bool) (front : List Slot) (stored : List Byte),
        s.link.assembler = .collecting toCome sum damaged 1 →
        s.requests.slots = front ++ [{ stage := .filling, stored := stored }] → (∀ slot ∈ front, slot.stage ≠ .filling) →
        let t := sleptIfQuiet
          { ticked s with
            link := { s.link with assembler := leftWith s }
            requests := { s.requests with slots := front }
            notices := { s.notices with sticky := s.notices.sticky ||| BitVec.twoPow 11 2 }
            counters := { s.counters with framing := counted s.counters.framing } }
        exec .gapTimeout s = .next t ∧ exec .tick s = .next t ∧ exec .huntingEnd s = .next s) ∧
      (s.link.assembler = .hunting 1 →
        let t := sleptIfQuiet { ticked s with link := { s.link with assembler := leftWith s } }
        exec .huntingEnd s = .next t ∧ exec .tick s = .next t ∧ exec .gapTimeout s = .next s)) ∧
    ((s.power.state = .run ∨ s.power.state = .sleepPending ∨ s.power.state = .doze) → s.link.assembler.good →
      (∀ slot ∈ s.requests.slots.dropLast, slot.stage ≠ .filling) →
      exec .tick s = .next (sleptIfQuiet (watchServed s (alarmServed s (gapServed s (ticked s))))) ∧
      (∀ (toCome : Nat) (sum : Byte) (damaged : Bool), s.link.assembler = .collecting toCome sum damaged 1 →
        exec .gapTimeout s = exec .tick s) ∧
      (s.link.assembler = .hunting 1 → exec .huntingEnd s = exec .tick s))

/-- R164, R167, R169, R176, R180: the tick at which the alarm expires sets ALARM, reloads a Periodic alarm and turns a One-shot one Off, and in
Doze with Wake set returns the part to Run; the tick at which the watch expires makes the link Lost, sets LINK_LOST and carries out the
fallback action; where other timers end at the same tick, either command is that whole tick, which TickServesItsTimers gives. At any other tick the two
commands change nothing (the model's form of 'not due', log entry 1). That a One-shot alarm keeps its Wake flag is an inference (log entry 24), and that
no line is armed after the return to Run (log entry 4) and that an engine that holds a parcel keeps it (log entry 31) the model's choice. -/
def Obligations.AlarmAndWatchExpire : Prop :=
  ∀ s : State, Settled s → (s.power.state = .run ∨ s.power.state = .sleepPending ∨ s.power.state = .doze) →
    (¬ alarmAtEnd s → exec .alarmExpiry s = .next s) ∧ (¬ watchAtEnd s → exec .linkWatchExpiry s = .next s) ∧
    (alarmAtEnd s → exec .alarmExpiry s = exec .tick s) ∧ (watchAtEnd s → exec .linkWatchExpiry s = exec .tick s) ∧
    (gapRuns s.link.assembler → alarmAtEnd s → ¬ watchAtEnd s →
      let rung : State :=
        { ticked s with
          notices := { s.notices with sticky := s.notices.sticky ||| BitVec.twoPow 11 8 }
          time := { (ticked s).time with
            alarmMode := if s.time.alarmMode = .periodic then .periodic else .off
            alarmPeriod := if s.time.alarmMode = .periodic then s.time.alarmPeriod else 0
            alarmCount := if s.time.alarmMode = .periodic then s.time.alarmPeriod else 0 } }
      let t :=
        if s.power.state = .doze ∧ s.time.alarmWake = true then
          { resumed rung with
            notices := { s.notices with sticky := s.notices.sticky ||| BitVec.twoPow 11 8 ||| BitVec.twoPow 11 3 } }
        else rung
      exec .alarmExpiry s = .next t ∧ exec .tick s = .next t) ∧
    (gapRuns s.link.assembler → watchAtEnd s → ¬ alarmAtEnd s →
      let t : State :=
        { ticked s with
          notices := { s.notices with sticky := s.notices.sticky ||| BitVec.twoPow 11 1 }
          time := { (ticked s).time with link := .lost }
          views := if s.time.watchAction = .none then s.views else { s.views with source := .fallback }
          panel :=
            if s.time.watchAction = .fallbackAndShow ∧ (s.panel.mode = .off ∨ s.panel.mode = .blank) then
              { s.panel with mode := .showing }
            else s.panel }
      exec .linkWatchExpiry s = .next t ∧ exec .tick s = .next t)

/-! ## Chapters 7 and 8: the scan pass, the repeat, wake scanning -/

/-- R131 to R141: a scan pass that is owed samples the active keys and moves each enabled key by its reading; it stores no count that has reached D; a key
that becomes Idle from Down or Settling-Up has its RELEASE in the queue, one that becomes Down from elsewhere its PRESS; nothing outside the scanner, the
queue, KEY_LOSS and its counter changes. Its parts go in the order of R133: the ghost episode ends where no closed key is ambiguous; the releases, in
ascending key number, clear the repeat owner and end the rollover episode; the keys read closed, in ascending key number, settle further or make their
press-side transition (PressesAndOffersAreJudged says what that offers); the repeat timer is served. The lines show closed the active keys whose contact is
closed and those at which three such keys are the other corners of a rectangle (R136). The model's choices: a longer path of closures shows its key closed
where the command says so, and at no other key a ghost is read (log entry 16); a pass that is not owed changes nothing (log entries 1 and 18). -/
def Obligations.ScanPassMovesEveryKey : Prop :=
  ∀ (longGhosts : KeySet) (s : State),
    let closed := linesShow longGhosts s
    let d := s.scanner.config.settle
    (∀ k : Fin 64, closed.getLsbD k.val = true ↔
      joinedWithin s.scanner.config s.pins.contacts 1 k.val ∨
        (longGhosts.getLsbD k.val = true ∧ joinedWithin s.scanner.config s.pins.contacts 3 k.val)) ∧
    (¬ passOwed s → exec (.scanPass longGhosts) s = .next s) ∧
    (passOwed s → ∃ (t : State) (new : List KeyEvent), exec (.scanPass longGhosts) s = .next t ∧
      t = { s with
        scanner := { s.scanner with
          raw := t.scanner.raw, states := t.scanner.states, passesDue := s.scanner.passesDue - 1, owner := t.scanner.owner,
          repeatTimer := t.scanner.repeatTimer, ghost := t.scanner.ghost, rollover := t.scanner.rollover }
        keys := t.keys
        notices := { s.notices with sticky := t.notices.sticky }
        counters := { s.counters with lostKey := t.counters.lostKey } } ∧
      t.keys.events = s.keys.events ++ new ∧ (∀ e ∈ new, e.time = s.time.ticks) ∧
      (∀ n, n < 10 → t.notices.sticky.getLsbD n = s.notices.sticky.getLsbD n) ∧
      ∀ k : Fin 64,
        let before := s.scanner.states[k]
        let after := t.scanner.states[k]
        (t.scanner.raw.getLsbD k.val = true ↔ readsClosed s.scanner.config closed k) ∧
        (s.scanner.table[k].enabled = false → after = before) ∧
        (s.scanner.table[k].enabled = true → ¬ readsClosed s.scanner.config closed k → after = openedState d before) ∧
        (s.scanner.table[k].enabled = true → readsClosed s.scanner.config closed k →
          if settlesDown d before then after = .down ∨ after = .suppressed 0 else after = closedState before) ∧
        (before.reported = true → after.reported = false →
          { kind := .release, key := BitVec.ofNat 8 k.val, time := s.time.ticks } ∈ new) ∧
        (before.reported = false → after.reported = true →
          { kind := .press, key := BitVec.ofNat 8 k.val, time := s.time.ticks } ∈ new)) ∧
    (passOwed s → ∃ ghost : Bool, (ghost = true ↔ ghostGoesOn closed s) ∧
      let before := releasedPart closed ghost s
      let after := pressedPart closed ghost s
      exec (.scanPass longGhosts) s = .next
        (match after.scanner.owner, after.scanner.repeatTimer with
        | some k, some timer =>
          if after.scanner.states[k] = .down ∧ before.scanner.states[k].reported = true then
            if timer ≤ s.scanner.config.period then
              let u := offer .repeated (BitVec.ofNat 8 k.val) s.time.ticks after
              { u with scanner := { u.scanner with repeatTimer := some (s.scanner.config.repeatInterval * 10) } }
            else
              { after with scanner :=
                { after.scanner with repeatTimer := some (timer - s.scanner.config.period) } }
          else after
        | _, _ => after))

/-- R133, R135, R138 to R141, R149: a pass in which one key settles closed and every other key is steady, with no ambiguous key, fewer than eight
reported keys and room for its press and its release: its PRESS is queued, it becomes Down and the repeat owner, and the repeat timer is loaded or
stopped by its Repeats flag. -/
def Obligations.ScanPassReportsAPress : Prop :=
  ∀ (longGhosts : KeySet) (k : Fin 64) (s : State), passOwed s → s.scanner.config.drives ≤ 10 → s.scanner.config.senses ≤ 6 →
    let closed := linesShow longGhosts s
    (∀ j : Fin 64, readsClosed s.scanner.config closed j → ¬ cornered (sampled s.scanner.config closed) j) →
    (∀ j : Fin 64, j ≠ k → steadyKey s closed j) →
    s.scanner.table[k].enabled = true → readsClosed s.scanner.config closed k →
    ((s.scanner.states[k] = .idle ∧ s.scanner.config.settle ≤ 1) ∨
      ∃ n, s.scanner.states[k] = .settlingDown n ∧ s.scanner.config.settle ≤ n + 1) →
    downCount s < 8 → s.keys.dropped = 0 → downCount s + 2 + s.keys.events.length ≤ 24 →
    let t := passed closed s
    exec (.scanPass longGhosts) s = .next
      { t with
        scanner := { t.scanner with
          states := s.scanner.states.set k .down
          owner := some k
          repeatTimer := if s.scanner.table[k].repeats then some (s.scanner.config.repeatDelay * 10) else none }
        keys := { s.keys with
          events := s.keys.events ++ [{ kind := .press, key := BitVec.ofNat 8 k.val, time := s.time.ticks }] } }

/-- R149, R151, R152: an offered event other than a release: a LOST marker goes first where events were dropped and F ≥ O + 1; the event is then
admitted where the places that its kind needs are free, and otherwise refused, which is counted twice and sets KEY_LOSS. R136 to R140: the
press-side transition: an ambiguous matrix key is Suppressed and the first of a ghost episode offers a GHOST; else, at eight reported keys, it is
Suppressed and the first of a rollover episode offers a ROLLOVER; else its PRESS is offered, and it is Down and the owner if that was
admitted, Suppressed if not. -/
def Obligations.PressesAndOffersAreJudged : Prop :=
  (∀ (kind : EventKind) (key : Byte) (time : Word) (s : State),
    kind = .press ∨ kind = .repeated ∨ kind = .ghost ∨ kind = .rollover →
    let o := s.scanner.states.toList.countP KeyState.reported
    let marker := s.keys.dropped ≠ 0 ∧ o + 1 ≤ 24 - s.keys.events.length
    let events := if marker then s.keys.events ++ [{ kind := .lost, key := s.keys.dropped, time := time }] else s.keys.events
    let dropped := if marker then 0 else s.keys.dropped
    let needed := if kind = .press then 2 else 1
    offer kind key time s =
      if o + needed ≤ 24 - events.length then
        { s with keys := { events := events ++ [{ kind := kind, key := key, time := time }], dropped := dropped } }
      else
        { s with
          keys := { events := events, dropped := counted dropped }
          counters := { s.counters with lostKey := counted s.counters.lostKey }
          notices := { s.notices with sticky := s.notices.sticky ||| BitVec.twoPow 11 10 } }) ∧
  ∀ (k : Fin 64) (s : State),
    let held : State := { s with scanner := { s.scanner with states := s.scanner.states.set k (.suppressed 0) } }
    let number : Byte := BitVec.ofNat 8 k.val
    let offered := offer .press number s.time.ticks s
    let admitted := offered.keys.events ≠ s.keys.events ∧
      offered.keys.events.getLast? = some { kind := .press, key := number, time := s.time.ticks }
    (cornered s.scanner.raw k → pressTransition k s =
      if s.scanner.ghost then held
      else offer .ghost number s.time.ticks { held with scanner := { held.scanner with ghost := true } }) ∧
    (¬ cornered s.scanner.raw k → 8 ≤ downCount s → pressTransition k s =
      if s.scanner.rollover then held
      else offer .rollover number s.time.ticks { held with scanner := { held.scanner with rollover := true } }) ∧
    (¬ cornered s.scanner.raw k → downCount s < 8 → pressTransition k s =
      if admitted then
        { offered with scanner := { s.scanner with
            states := s.scanner.states.set k .down
            owner := some k
            repeatTimer := if s.scanner.table[k].repeats then some (s.scanner.config.repeatDelay * 10) else none } }
      else { offered with scanner := { s.scanner with states := s.scanner.states.set k (.suppressed 0) } })

/-- R133, R141: in every pass that is owed the command REPEAT is the whole pass where its step 4 would make the repeat timer run out, and changes nothing
elsewhere (the model's form of 'not due', log entries 1 and 10); ScanPassMovesEveryKey gives that step. In a pass over steady keys the timer of an owner that
is Down falls by the scan period, and where it would run out a REPEAT is offered and it is reloaded. -/
def Obligations.RepeatTimerIsServed : Prop :=
  (∀ (longGhosts : KeySet) (s : State),
    let closed := linesShow longGhosts s
    (¬ passOwed s → exec (.repeatEvent longGhosts) s = .next s) ∧
    (passOwed s → ∃ ghost : Bool, (ghost = true ↔ ghostGoesOn closed s) ∧
      (repeatDue closed ghost s → exec (.repeatEvent longGhosts) s = exec (.scanPass longGhosts) s) ∧
      (¬ repeatDue closed ghost s → exec (.repeatEvent longGhosts) s = .next s))) ∧
  ∀ (longGhosts : KeySet) (k : Fin 64) (timer : Nat) (s : State), passOwed s → s.scanner.config.drives ≤ 10 →
    s.scanner.config.senses ≤ 6 →
    let closed := linesShow longGhosts s
    (∀ j : Fin 64, readsClosed s.scanner.config closed j → ¬ cornered (sampled s.scanner.config closed) j) →
    (∀ j : Fin 64, steadyKey s closed j) → s.scanner.owner = some k → s.scanner.states[k] = .down →
    s.scanner.repeatTimer = some timer →
    (timer ≤ s.scanner.config.period →
      let t := offer .repeated (BitVec.ofNat 8 k.val) s.time.ticks (passed closed s)
      let served := { t with scanner := { t.scanner with repeatTimer := some (s.scanner.config.repeatInterval * 10) } }
      exec (.repeatEvent longGhosts) s = .next served ∧ exec (.scanPass longGhosts) s = .next served) ∧
    (s.scanner.config.period < timer →
      let t := passed closed s
      exec (.scanPass longGhosts) s =
        .next { t with scanner := { t.scanner with repeatTimer := some (timer - s.scanner.config.period) } } ∧
      exec (.repeatEvent longGhosts) s = .next s)

/-- R142, R143, R179: a key contact that closes or opens shows on the lines. During wake scanning a watched line that opens by it is armed; one that closes
is unarmed and, if it was armed and is a wake line, makes a wake step fall due; a contact that leaves its line's reading changes no more. The lines that are
armed as wake scanning begins (`openLines`) are the watched lines on which no contact is closed. -/
def Obligations.WatchedLineChangeArmsOrWakes : Prop :=
  (∀ (c : ScanConfig) (contacts : KeySet) (line : Nat), c.drives ≤ 10 → c.senses ≤ 6 → line < 10 →
    ((openLines c contacts).getLsbD line = true ↔
      (6 ≤ line ∨ line < c.senses) ∧ ¬ ∃ j : Fin 64, onLine c line j ∧ contacts.getLsbD j.val = true)) ∧
  ∀ (k : Fin 64) (closed : Bool) (s : State), s.scanner.config.drives ≤ 10 → s.scanner.config.senses ≤ 6 →
    ∃ contacts : KeySet, (∀ j : Fin 64, contacts.getLsbD j.val = if j = k then closed else s.pins.contacts.getLsbD j.val) ∧
      let line := if k.val < 60 then k.val % 6 else k.val - 54
      let watched := 6 ≤ line ∨ line < s.scanner.config.senses
      let wasClosed := ∃ j : Fin 64, onLine s.scanner.config line j ∧ s.pins.contacts.getLsbD j.val = true
      let isClosed := ∃ j : Fin 64, onLine s.scanner.config line j ∧ contacts.getLsbD j.val = true
      let wakes := ∃ j : Fin 64, onLine s.scanner.config line j ∧ s.scanner.table[j].enabled = true ∧
        s.scanner.table[j].wakes = true
      let shown : State := { s with pins := { s.pins with contacts := contacts } }
      (s.power.state ≠ .doze ∧ s.power.state ≠ .sleep ∨ ¬ watched ∨ (wasClosed ↔ isClosed) →
        exec (.watchedLineChange k closed) s = .next shown) ∧
      ((s.power.state = .doze ∨ s.power.state = .sleep) → watched → wasClosed → ¬ isClosed →
        exec (.watchedLineChange k closed) s = .next
          { shown with scanner := { s.scanner with armed := s.scanner.armed ||| BitVec.twoPow 10 line } }) ∧
      ((s.power.state = .doze ∨ s.power.state = .sleep) → watched → ¬ wasClosed → isClosed →
        ∃ due : Bool, (due = true ↔ s.power.wakeDue = true ∨ (s.scanner.armed.getLsbD line = true ∧ wakes)) ∧
          exec (.watchedLineChange k closed) s = .next
            { shown with
              scanner := { s.scanner with armed := s.scanner.armed &&& ~~~BitVec.twoPow 10 line }
              power := { s.power with wakeDue := due } })

/-! ## Rules over the whole part -/

/-- R45, R46, R97, R100, R105, R106: the three memories stay in their canonical form and inside their sizes, attribute bytes hold three flags, and every
descriptor of the pool stays one that LOAD DESCRIPTOR accepts. The canonical form is the model's. -/
def Obligations.MemoriesStayGood : Prop :=
  ∀ s t : State, MemoriesGood s → step s = .next t → MemoriesGood t

/-- R138, R148, R150: the reservation invariant: at most 24 records, at most eight reported keys, and never fewer free places than
outstanding releases. -/
def Obligations.ReservationIsKept : Prop :=
  ∀ s t : State, ReservationKept s → step s = .next t → ReservationKept t

/-- R60, R62, R63, R76: every view of both tables stays a legal record with its scroll counters below its rates. -/
def Obligations.ViewsStayGood : Prop :=
  ∀ s t : State, ViewsGood s → step s = .next t → ViewsGood t

/-- R6, R13, R19, R20, R28, R30, R32, R34, R35, R172, R177: the queue, the engine, the assembler, the ring and the power state go on fitting
together. R123: chains go on being pending in Run only. -/
def Obligations.LinkAndPowerStayTogether : Prop :=
  ∀ s t : State, LinkGood s ∧ ChainsAwake s → step s = .next t → LinkGood t ∧ ChainsAwake t

/-- R79, R85, R128, R166, R168, R169: every configured number stays in its range, and the alarm and watch counts run exactly while the alarm
and the watch do. -/
def Obligations.RangesStayGood : Prop :=
  ∀ s t : State, RangesGood s ∧ TimebaseGood s → step s = .next t → RangesGood t ∧ TimebaseGood t

/-- R100, R115, R116, R120: every Held slot goes on belonging to exactly one pending chain, every pending chain holds the slots of its walk, handles
stay distinct and not 0, urgent records stay first, and the two lists stay in their sizes. -/
def Obligations.HeldSlotsBelongToTheirChain : Prop :=
  ∀ s t : State, HoldsGood s → step s = .next t → HoldsGood t

/-- R26, R47, R64, R97, R124, R150, R181: the part after a power-on reset meets each invariant. -/
def Obligations.ResetMeetsTheInvariants : Prop :=
  MemoriesGood State.reset ∧ ReservationKept State.reset ∧ ViewsGood State.reset ∧ LinkGood State.reset ∧
    ChainsAwake State.reset ∧ (RangesGood State.reset ∧ TimebaseGood State.reset) ∧ HoldsGood State.reset

/-- R172: the power state changes only by the eight transitions of the table, each in the step it names. -/
def Obligations.PowerStateChangesOnlyByItsTransitions : Prop :=
  ∀ (c : Instr) (s t : State), c.wellFormed = true → LinkGood s → exec c s = .next t → t.power.state ≠ s.power.state →
    powerChange c s.power.state t.power.state = true

/-- R47, R55, R64, R67, R68, R79, R81, R82, R85, R87, R92, R97, R101, R111, R115: no command but those that the rules name changes the canvas, its cursor, the
staging memory, the view records and their scroll counters, the view source, the backdrop, the panel, the snapshot, the frame counter, the blink state, the
Last Mark or the last handle issued; and a slot of the pool changes only by the transitions of R101. -/
def Obligations.PictureStoresHaveTheirWriters : Prop :=
  ∀ (c : Instr) (s t : State), c.wellFormed = true → exec c s = .next t → resetCommand c = false →
    (t.canvas.pixels ≠ s.canvas.pixels →
      c = .writeCanvas ∨ c = .writeAtCursor ∨ c = .clearCanvas ∨ boundaryCommand c = true) ∧
    (t.canvas.attributes ≠ s.canvas.attributes →
      c = .writeCanvas ∨ c = .writeAttributes ∨ c = .writeAtCursor ∨ c = .clearCanvas ∨ boundaryCommand c = true) ∧
    (t.canvas.cursor ≠ s.canvas.cursor → c = .setCursor ∨ c = .writeAtCursor) ∧
    (t.canvas.step ≠ s.canvas.step → c = .setCursor) ∧
    (t.staging ≠ s.staging → c = .stage) ∧
    (t.views.primary ≠ s.views.primary ∨ t.views.fallback ≠ s.views.fallback → c = .setView ∨ boundaryCommand c = true) ∧
    (t.views.source ≠ s.views.source → c = .selectViews ∨ tickCommand c = true) ∧
    (t.views.backdrop ≠ s.views.backdrop → c = .setBackdrop) ∧
    (t.panel.columns ≠ s.panel.columns ∨ t.panel.rows ≠ s.panel.rows ∨ t.panel.frameRate ≠ s.panel.frameRate →
      c = .configurePanel) ∧
    (t.panel.contrast ≠ s.panel.contrast → c = .setContrast) ∧
    (t.panel.mode ≠ s.panel.mode → c = .setDisplayMode ∨ tickCommand c = true) ∧
    (t.panel.snapshot ≠ s.panel.snapshot ∨ t.frames.counter ≠ s.frames.counter → boundaryCommand c = true) ∧
    (t.frames.blinkPeriod ≠ s.frames.blinkPeriod → c = .setBlink) ∧
    (t.frames.blinkCount ≠ s.frames.blinkCount ∨ t.frames.blinkPhase ≠ s.frames.blinkPhase →
      c = .setBlink ∨ boundaryCommand c = true) ∧
    (t.chains.lastMark ≠ s.chains.lastMark → boundaryCommand c = true) ∧
    (t.chains.lastHandle ≠ s.chains.lastHandle → c = .submitChain) ∧
    ∀ i : Fin 32, t.chains.pool[i] ≠ s.chains.pool[i] → match s.chains.pool[i], t.chains.pool[i] with
      | .free, .loaded _ => c = .loadDescriptor
      | .loaded _, .loaded _ => c = .loadDescriptor
      | .loaded _, .free => c = .freeDescriptor
      | .loaded d, .held _ e => c = .submitChain ∧ e = d
      | .held _ d, .free => boundaryCommand c = true ∧ d.release = true
      | .held _ d, .loaded e =>
        e = d ∧ ((boundaryCommand c = true ∧ d.release = false) ∨ c = .cancelChain ∨
          (c = .posting ∧ ∃ a, s.requests.engine = .replying a ∧ a.effect = .warmReset))
      | .free, .held .. => False
      | .held .., .held .. => False
      | .free, .free => False

/-- R4, R20, R43, R126, R128, R160, R164, R166, R168, R170, R183: no command but those that the rules name changes the ring, UNDERRUN, a counter, the key table, the
scan configuration, the mask, the tick counter, the settings of the alarm and the watch, or the reset cause; only a watch expiry makes the link Lost, and only
a Good parcel, the RESTART or a reset makes it Live. -/
def Obligations.LinkAndKeyStoresHaveTheirWriters : Prop :=
  ∀ (c : Instr) (s t : State), c.wellFormed = true → exec c s = .next t → resetCommand c = false →
    (t.link.ring ≠ s.link.ring → c = .posting ∨ c = .linkDataRead ∨ ∃ v, c = .resync v) ∧
    (t.link.underrun ≠ s.link.underrun → c = .linkDataRead ∨ c = .linkStatusRead) ∧
    (t.counters.overrun ≠ s.counters.overrun → c = .clearCounters ∨ ∃ v, c = .linkDataWrite v) ∧
    (t.counters.framing ≠ s.counters.framing → c = .clearCounters ∨ c = .byteTaken ∨ tickCommand c = true) ∧
    (t.counters.reject ≠ s.counters.reject → c = .clearCounters ∨ c = .byteTaken) ∧
    (t.counters.lateFrame ≠ s.counters.lateFrame → c = .clearCounters ∨ c = .frameBoundary true) ∧
    (t.counters.lostKey ≠ s.counters.lostKey → c = .clearCounters ∨ passCommand c = true) ∧
    (t.scanner.table ≠ s.scanner.table → c = .setKey) ∧
    (t.scanner.config ≠ s.scanner.config → c = .configureScan) ∧
    (t.notices.mask ≠ s.notices.mask → ∃ a v, c = .noticeMask a v) ∧
    (t.time.ticks ≠ s.time.ticks → tickCommand c = true ∧ t.time.ticks = s.time.ticks + 1) ∧
    (t.time.alarmPeriod ≠ s.time.alarmPeriod ∨ t.time.alarmMode ≠ s.time.alarmMode ∨ t.time.alarmWake ≠ s.time.alarmWake →
      c = .setAlarm ∨ c = .posting ∨ tickCommand c = true) ∧
    (t.time.watchPeriod ≠ s.time.watchPeriod ∨ t.time.watchAction ≠ s.time.watchAction → c = .setLinkWatch ∨ c = .posting) ∧
    (t.power.cause ≠ s.power.cause → c = .posting) ∧
    (s.time.link = .live → t.time.link = .lost → tickCommand c = true ∧ watchAtEnd s) ∧
    (s.time.link = .lost → t.time.link = .live →
      (c = .byteTaken ∧ ∃ b sum gap toCome, s.link.holding = some b ∧ s.link.assembler = .collecting toCome sum false gap ∧
        toCome ≤ 1 ∧ sum + b = 0 ∧
        ∃ slot ∈ s.requests.slots, slot.stage = .filling ∧ ((slot.stored ++ [b]).getD 0 0).toNat < 0x80) ∨
      (c = .posting ∧ ∃ a, s.requests.engine = .replying a ∧ a.effect = .warmReset))

/-- R61, R62, R66, R102, R104: what READ DESCRIPTOR returns of a legal descriptor loads again as that descriptor, and what GET VIEW returns of a
legal view record is read again as that record and accepted. -/
def Obligations.RecordsReadBackAsWritten : Prop :=
  (∀ (slot : Byte) (d : Descriptor), d.action.legal → descriptorOf (slot :: descriptorBytes d) = some d) ∧
  ∀ (table index : Byte) (v : ViewRecord), v.legal = true →
    viewRecordAt (table :: index :: viewRecordBytes v) 2 = v ∧
      viewRecordAccepted (table :: index :: viewRecordBytes v) 2 = true
end

