-- ==== Sys2Proof/Laws/Memory.lean ====
section
/-! SUPPORT. The laws of the addressed RAMs: what a write leaves at every address, and that every operation keeps the canonical form
and the bounds. -/

namespace Sys2Proof.Machine

/-- The canonical form as two facts about the entries: addresses strictly rising, and no entry at the value of an unlisted address. -/
theorem Memory.wf_iff (m : Memory) :
    m.wf = true ↔ m.Pairwise (fun a b => a.1 < b.1) ∧ ∀ c ∈ m, c.2 ≠ unlistedByte := by
  induction m with
  | nil => simp [Memory.wf]
  | cons x rest ih =>
    obtain ⟨a, b⟩ := x
    cases rest with
    | nil => simp [Memory.wf]
    | cons y rest =>
      obtain ⟨c, d⟩ := y
      rw [show Memory.wf ((a, b) :: (c, d) :: rest) =
        (decide (a < c) && b != unlistedByte && Memory.wf ((c, d) :: rest)) from rfl]
      simp only [Bool.and_eq_true, decide_eq_true_eq, bne_iff_ne, ih]
      constructor
      · rintro ⟨⟨hac, hb⟩, hp, hv⟩
        refine ⟨List.pairwise_cons.2 ⟨fun z hz => ?_, hp⟩, ?_⟩
        · rcases List.mem_cons.1 hz with rfl | hz
          · exact hac
          · exact Nat.lt_trans hac ((List.pairwise_cons.1 hp).1 z hz)
        · rintro z (_ | ⟨_, hz⟩)
          · exact hb
          · exact hv z hz
      · rintro ⟨hp, hv⟩
        have h := List.pairwise_cons.1 hp
        exact ⟨⟨h.1 _ (List.mem_cons_self ..), hv _ (List.mem_cons_self ..)⟩, h.2,
          fun z hz => hv z (List.mem_cons_of_mem _ hz)⟩

/-- An address below every listed one reads as unlisted. -/
theorem memRead_of_lt_all (m : Memory) (k : Nat) (h : ∀ c ∈ m, k < c.1) : memRead m k = unlistedByte := by
  induction m with
  | nil => rfl
  | cons x rest ih =>
    obtain ⟨a, b⟩ := x
    have hk : a ≠ k := Nat.ne_of_gt (h _ (List.mem_cons_self ..))
    simp only [memRead, if_neg hk]
    exact ih fun c hc => h c (List.mem_cons_of_mem _ hc)

/-- Reading after putting a byte in front. -/
theorem memRead_memCons (k : Nat) (v : Byte) (rest : Memory) (j : Nat) (h : ∀ c ∈ rest, k < c.1) :
    memRead (memCons k v rest) j = if j = k then v else memRead rest j := by
  unfold memCons
  by_cases hv : v = unlistedByte
  · by_cases hj : j = k
    · simp [hv, hj, memRead_of_lt_all rest k h]
    · simp [hv, hj]
  · by_cases hj : j = k
    · simp [hv, hj, memRead]
    · simp [hv, hj, memRead, Ne.symm hj]

/-- A read after a write: the written byte at its address, the old byte at every other. -/
theorem memRead_memWrite (m : Memory) (k : Nat) (v : Byte) (j : Nat) (h : m.wf = true) :
    memRead (memWrite m k v) j = if j = k then v else memRead m j := by
  rw [Memory.wf_iff] at h
  obtain ⟨hp, -⟩ := h
  induction m with
  | nil => simpa [memWrite] using memRead_memCons k v [] j (by simp)
  | cons x rest ih =>
    obtain ⟨a, b⟩ := x
    obtain ⟨ha, hp⟩ := List.pairwise_cons.1 hp
    unfold memWrite
    by_cases hka : k < a
    · rw [if_pos hka]
      refine memRead_memCons k v _ j fun c hc => ?_
      rcases List.mem_cons.1 hc with rfl | hc
      · exact hka
      · exact Nat.lt_trans hka (ha c hc)
    · rw [if_neg hka]
      by_cases heq : k = a
      · subst heq
        rw [if_pos rfl, memRead_memCons k v rest j ha]
        by_cases hj : j = k
        · simp [hj]
        · simp [hj, memRead, Ne.symm hj]
      · rw [if_neg heq]
        by_cases hja : a = j
        · subst hja
          simp [memRead, Ne.symm heq]
        · simp [memRead, hja, ih hp]

/-- Putting a byte in front keeps the canonical form. -/
theorem memCons_wf (k : Nat) (v : Byte) (rest : Memory) (hr : rest.wf = true) (h : ∀ c ∈ rest, k < c.1) :
    (memCons k v rest).wf = true := by
  unfold memCons
  by_cases hv : v = unlistedByte
  · simpa [hv] using hr
  · rw [if_neg hv]
    rw [Memory.wf_iff] at hr ⊢
    exact ⟨List.pairwise_cons.2 ⟨h, hr.1⟩, by
      rintro z (_ | ⟨_, hz⟩)
      · exact hv
      · exact hr.2 z hz⟩

/-- Every entry that a write leaves is the written one or an old one. -/
theorem mem_of_mem_memWrite (m : Memory) (k : Nat) (v : Byte) (c : Host.Cell) (h : c ∈ memWrite m k v) :
    c = (k, v) ∨ c ∈ m := by
  have hcons : ∀ rest : Memory, c ∈ memCons k v rest → c = (k, v) ∨ c ∈ rest := by
    intro rest hc
    unfold memCons at hc
    by_cases hv : v = unlistedByte
    · rw [if_pos hv] at hc
      exact .inr hc
    · rw [if_neg hv] at hc
      exact (List.mem_cons.1 hc)
  induction m with
  | nil => exact hcons [] h
  | cons x rest ih =>
    obtain ⟨a, b⟩ := x
    unfold memWrite at h
    by_cases hka : k < a
    · rw [if_pos hka] at h
      exact hcons _ h
    · rw [if_neg hka] at h
      by_cases heq : k = a
      · rw [if_pos heq] at h
        exact (hcons _ h).imp_right (List.mem_cons_of_mem _)
      · rw [if_neg heq] at h
        rcases List.mem_cons.1 h with rfl | h
        · exact .inr (List.mem_cons_self ..)
        · exact (ih h).imp_right (List.mem_cons_of_mem _)

/-- A write keeps the canonical form. -/
theorem memWrite_wf (m : Memory) (k : Nat) (v : Byte) (h : m.wf = true) : (memWrite m k v).wf = true := by
  induction m with
  | nil => exact memCons_wf k v [] h (by simp)
  | cons x rest ih =>
    obtain ⟨a, b⟩ := x
    have hwf := (Memory.wf_iff _).1 h
    obtain ⟨ha, hp⟩ := List.pairwise_cons.1 hwf.1
    have hrest : Memory.wf rest = true :=
      (Memory.wf_iff _).2 ⟨hp, fun c hc => hwf.2 c (List.mem_cons_of_mem _ hc)⟩
    unfold memWrite
    by_cases hka : k < a
    · rw [if_pos hka]
      refine memCons_wf k v _ h fun c hc => ?_
      rcases List.mem_cons.1 hc with rfl | hc
      · exact hka
      · exact Nat.lt_trans hka (ha c hc)
    · rw [if_neg hka]
      by_cases heq : k = a
      · rw [if_pos heq]
        subst heq
        exact memCons_wf k v rest hrest ha
      · rw [if_neg heq]
        have ih := (Memory.wf_iff _).1 (ih hrest)
        refine (Memory.wf_iff _).2 ⟨List.pairwise_cons.2 ⟨fun c hc => ?_, ih.1⟩, ?_⟩
        · rcases mem_of_mem_memWrite rest k v c hc with rfl | hc
          · show a < k
            omega
          · exact ha c hc
        · rintro c (_ | ⟨_, hc⟩)
          · exact hwf.2 _ (List.mem_cons_self ..)
          · exact ih.2 c hc

/-- A write below the size keeps the bound. -/
theorem memWrite_within (m : Memory) (size k : Nat) (v : Byte) (h : m.within size = true) (hk : k < size) :
    (memWrite m k v).within size = true := by
  simp only [Memory.within, List.all_eq_true, decide_eq_true_eq] at h ⊢
  intro c hc
  rcases mem_of_mem_memWrite m k v c hc with rfl | hc
  · exact hk
  · exact h c hc

/-- A run of bytes written keeps the canonical form. -/
theorem memWriteRun_wf (bytes : List Byte) : ∀ (m : Memory) (start : Nat), m.wf = true → (memWriteRun m start bytes).wf = true := by
  induction bytes with
  | nil => exact fun m _ h => h
  | cons b bytes ih => exact fun m start h => ih _ _ (memWrite_wf m start b h)

/-- A run of bytes written inside the size keeps the bound. -/
theorem memWriteRun_within (size : Nat) (bytes : List Byte) :
    ∀ (m : Memory) (start : Nat), m.within size = true → start + bytes.length ≤ size →
      (memWriteRun m start bytes).within size = true := by
  induction bytes with
  | nil => exact fun m _ h _ => h
  | cons b bytes ih =>
    intro m start h hs
    simp only [List.length_cons] at hs
    exact ih _ _ (memWrite_within m size start b h (by omega)) (by omega)

/-- A read after a run was written: the run's byte at its addresses, the old byte elsewhere. -/
theorem memRead_memWriteRun (bytes : List Byte) :
    ∀ (m : Memory) (start j : Nat), m.wf = true →
      memRead (memWriteRun m start bytes) j =
        if start ≤ j ∧ j < start + bytes.length then bytes.getD (j - start) 0 else memRead m j := by
  induction bytes with
  | nil =>
    intro m start j _
    rw [if_neg (by simp)]
    rfl
  | cons b bytes ih =>
    intro m start j h
    rw [memWriteRun, ih _ _ _ (memWrite_wf m start b h), memRead_memWrite m start b j h]
    simp only [List.length_cons]
    by_cases hj : j = start
    · subst hj
      rw [if_neg (by omega), if_pos rfl, if_pos (by omega)]
      simp
    · by_cases hin : start + 1 ≤ j ∧ j < start + 1 + bytes.length
      · rw [if_pos hin, if_pos (by omega)]
        obtain ⟨d, hd⟩ : ∃ d, j - start = d + 1 := ⟨j - start - 1, by omega⟩
        rw [show j - (start + 1) = d by omega, hd]
        simp
      · rw [if_neg hin, if_neg hj, if_neg (by omega)]

/-- The length of a run that is read. -/
@[simp] theorem memReadRun_length (m : Memory) (start n : Nat) : (memReadRun m start n).length = n := by
  simp [memReadRun]

/-- Filling leaves the canonical form, inside the size. -/
theorem memFill_wf (size : Nat) (v : Byte) : (memFill size v).wf = true ∧ (memFill size v).within size = true := by
  unfold memFill
  by_cases hv : v = unlistedByte
  · simp [hv, Memory.wf, Memory.within]
  · rw [if_neg hv]
    constructor
    · rw [Memory.wf_iff]
      constructor
      · rw [List.pairwise_map]
        exact List.pairwise_lt_range
      · simp only [List.mem_map]
        rintro c ⟨a, -, rfl⟩
        exact hv
    · simp [Memory.within]

/-- Every address of a filled memory reads as the fill value. -/
theorem memRead_memFill (size : Nat) (v : Byte) (j : Nat) (hj : j < size) : memRead (memFill size v) j = v := by
  unfold memFill
  by_cases hv : v = unlistedByte
  · rw [if_pos hv, hv]
    rfl
  · rw [if_neg hv]
    have h : ∀ l : List Nat, j ∈ l → memRead (l.map fun a => (a, v)) j = v := by
      intro l
      induction l with
      | nil => simp
      | cons a l ih =>
        intro hm
        by_cases ha : a = j
        · simp [memRead, ha]
        · simp only [List.map_cons, memRead, if_neg ha]
          exact ih ((List.mem_cons.1 hm).resolve_left (Ne.symm ha))
    exact h _ (List.mem_range.2 hj)

end Sys2Proof.Machine
end

