-- ==== Sys2Proof/Laws/Canvas.lean ====
section
/-! SUPPORT. What writing cells leaves in the two planes of the canvas (R45 to R49). -/

namespace Sys2Proof.Machine

/-- Bytes written to addresses, pair by pair in order. -/
def memWriteAll (m : Memory) (cells : List (Nat × Byte)) : Memory := cells.foldl (fun m c => memWrite m c.1 c.2) m

/-- Writing many bytes keeps the canonical form. -/
theorem memWriteAll_wf (cells : List (Nat × Byte)) : ∀ m : Memory, m.wf = true → (memWriteAll m cells).wf = true := by
  induction cells with
  | nil => exact fun m h => h
  | cons c cells ih => exact fun m h => ih _ (memWrite_wf m _ _ h)

/-- Writing many bytes inside the size keeps the bound. -/
theorem memWriteAll_within (size : Nat) (cells : List (Nat × Byte)) :
    ∀ m : Memory, m.within size = true → (∀ c ∈ cells, c.1 < size) → (memWriteAll m cells).within size = true := by
  induction cells with
  | nil => exact fun m h _ => h
  | cons c cells ih =>
    exact fun m h hc => ih _ (memWrite_within m size _ _ h (hc c (List.mem_cons_self ..)))
      fun d hd => hc d (List.mem_cons_of_mem _ hd)

/-- Every entry after writing many bytes is a written one or an old one. -/
theorem mem_of_mem_memWriteAll (cells : List (Nat × Byte)) :
    ∀ (m : Memory) (c : Host.Cell), c ∈ memWriteAll m cells → c ∈ cells ∨ c ∈ m := by
  induction cells with
  | nil => exact fun m c h => .inr h
  | cons d cells ih =>
    intro m c h
    rcases ih _ c h with h | h
    · exact .inl (List.mem_cons_of_mem _ h)
    · rcases mem_of_mem_memWrite m d.1 d.2 c h with rfl | h
      · exact .inl (List.mem_cons_self ..)
      · exact .inr h

/-- An address that is not written keeps its byte. -/
theorem memRead_memWriteAll_of_notMem (cells : List (Nat × Byte)) (j : Nat) :
    ∀ m : Memory, m.wf = true → (∀ c ∈ cells, c.1 ≠ j) → memRead (memWriteAll m cells) j = memRead m j := by
  induction cells with
  | nil => exact fun _ _ _ => rfl
  | cons c cells ih =>
    intro m h hc
    refine (ih _ (memWrite_wf m _ _ h) fun d hd => hc d (List.mem_cons_of_mem _ hd)).trans ?_
    rw [memRead_memWrite m _ _ j h, if_neg (hc c (List.mem_cons_self ..)).symm]

/-- An address that is written once reads as the byte written to it. -/
theorem memRead_memWriteAll_of_mem (cells : List (Nat × Byte)) (c : Nat × Byte) :
    ∀ m : Memory, m.wf = true → (cells.map Prod.fst).Nodup → c ∈ cells → memRead (memWriteAll m cells) c.1 = c.2 := by
  induction cells with
  | nil => exact fun _ _ _ hc => absurd hc (List.not_mem_nil)
  | cons d cells ih =>
    intro m h hn hc
    have hn := List.nodup_cons.1 hn
    rcases List.mem_cons.1 hc with rfl | hc
    · refine (memRead_memWriteAll_of_notMem cells c.1 _ (memWrite_wf m _ _ h) fun e he heq => ?_).trans ?_
      · exact hn.1 (heq ▸ List.mem_map_of_mem he)
      · rw [memRead_memWrite m _ _ _ h, if_pos rfl]
    · exact ih _ (memWrite_wf m _ _ h) hn.2 hc

/-- R49: the pixel plane after cells were written. -/
theorem writeCells_pixels (mode : AttributeMode) (a : AttributeSet) (cells : List (Nat × Byte)) :
    ∀ c : Canvas, (writeCells mode a cells c).pixels = memWriteAll c.pixels cells := by
  induction cells with
  | nil => exact fun _ => rfl
  | cons d cells ih =>
    intro c
    refine (ih (writeCell mode a d.1 d.2 c)).trans ?_
    cases mode <;> rfl

/-- R49: the attribute plane after cells were written: kept in Keep mode, the one set in every written cell in Apply mode. -/
theorem writeCells_attributes (mode : AttributeMode) (a : AttributeSet) (cells : List (Nat × Byte)) :
    ∀ c : Canvas, (writeCells mode a cells c).attributes =
      match mode with
      | .keep => c.attributes
      | .apply => memWriteAll c.attributes (cells.map fun d => (d.1, attributesByte a)) := by
  induction cells with
  | nil => intro c; cases mode <;> rfl
  | cons d cells ih =>
    intro c
    refine (ih (writeCell mode a d.1 d.2 c)).trans ?_
    cases mode <;> rfl

/-- R49: writing cells moves no cursor. -/
theorem writeCells_cursor (mode : AttributeMode) (a : AttributeSet) (cells : List (Nat × Byte)) :
    ∀ c : Canvas, (writeCells mode a cells c).cursor = c.cursor ∧ (writeCells mode a cells c).step = c.step := by
  induction cells with
  | nil => exact fun _ => ⟨rfl, rfl⟩
  | cons d cells ih =>
    intro c
    have h := ih (writeCell mode a d.1 d.2 c)
    cases mode <;> exact h

/-- R46: an attribute set as its byte keeps the three flags and clears the rest. -/
theorem attributesByte_attributesOf (b : Byte) : attributesByte (attributesOf b) = b &&& 0x07 := by
  revert b; decide

end Sys2Proof.Machine
end

