-- ==== Sys2Proof/Laws/Apply.lean ====
section
/-! SUPPORT. What the application of chains can change (R118, R119). -/

namespace Sys2Proof.Machine

/-- R106 to R111: an action changes the canvas, the views, the Last Mark and the sticky notices alone. -/
theorem applyAction_frame (a : Action) (s : State) :
    ∃ canvas views mark sticky, applyAction a s =
      { s with
        canvas := canvas, views := views
        chains := { s.chains with lastMark := mark }
        notices := { s.notices with sticky := sticky } } := by
  cases a with
  | copy offset r m a => exact ⟨_, s.views, s.chains.lastMark, s.notices.sticky, rfl⟩
  | fill r pattern m a => exact ⟨_, s.views, s.chains.lastMark, s.notices.sticky, rfl⟩
  | attributes r x y => exact ⟨_, s.views, s.chains.lastMark, s.notices.sticky, rfl⟩
  | origin t i x y =>
    simp only [applyAction]
    unfold applyOrigin
    split
    · exact ⟨s.canvas, s.views, s.chains.lastMark, s.notices.sticky, rfl⟩
    · exact ⟨s.canvas, _, s.chains.lastMark, s.notices.sticky, rfl⟩
  | visibility t i enabled => exact ⟨s.canvas, _, s.chains.lastMark, s.notices.sticky, rfl⟩
  | mark value => exact ⟨s.canvas, s.views, value, _, rfl⟩

/-- R118: so do the actions of a chain. -/
theorem runActions_frame (actions : List Action) (s : State) :
    ∃ canvas views mark sticky, runActions actions s =
      { s with
        canvas := canvas, views := views
        chains := { s.chains with lastMark := mark }
        notices := { s.notices with sticky := sticky } } := by
  unfold runActions
  induction actions generalizing s with
  | nil => exact ⟨s.canvas, s.views, s.chains.lastMark, s.notices.sticky, rfl⟩
  | cons a rest ih =>
    obtain ⟨c, v, m, n, h⟩ := applyAction_frame a s
    obtain ⟨c', v', m', n', h'⟩ := ih (applyAction a s)
    refine ⟨c', v', m', n', ?_⟩
    rw [List.foldl_cons, h', h]

/-- R119: the application of a chain changes the canvas, the views, the chains and the sticky notices alone. -/
theorem applyChain_frame (c : PendingChain) (s : State) :
    ∃ canvas views chains sticky, applyChain c s =
      { s with canvas := canvas, views := views, chains := chains, notices := { s.notices with sticky := sticky } } := by
  obtain ⟨x, v, m, n, h⟩ := runActions_frame (chainActions s.chains.pool (chainSlots s.chains.pool 32 c.head)) s
  simp only [applyChain, finishChain, h]
  exact ⟨x, v, _, n, rfl⟩

/-- R117: so does the application of a list of chains. -/
theorem applyChains_frame (cs : List PendingChain) (s : State) :
    ∃ canvas views chains sticky, cs.foldl (fun t c => applyChain c t) s =
      { s with canvas := canvas, views := views, chains := chains, notices := { s.notices with sticky := sticky } } := by
  induction cs generalizing s with
  | nil => exact ⟨s.canvas, s.views, s.chains, s.notices.sticky, rfl⟩
  | cons c rest ih =>
    obtain ⟨x, v, m, n, h⟩ := applyChain_frame c s
    obtain ⟨x', v', m', n', h'⟩ := ih (applyChain c s)
    refine ⟨x', v', m', n', ?_⟩
    rw [List.foldl_cons, h', h]

/-- R89, R117: step 6 of the boundary changes the canvas, the views, the chains and the sticky notices alone. -/
theorem applyDueChains_frame (s : State) :
    ∃ canvas views chains sticky, applyDueChains s =
      { s with canvas := canvas, views := views, chains := chains, notices := { s.notices with sticky := sticky } } := by
  obtain ⟨x, v, m, n, h⟩ := applyChains_frame (dueChains s) s
  simp only [applyDueChains, h]
  split
  · exact ⟨x, v, m, n, rfl⟩
  · exact ⟨x, v, m, n ||| Notice.chainDone.word, rfl⟩

/-- R117: where no chain is due step 6 of the boundary does nothing. -/
theorem applyDueChains_of_none (s : State) (h : dueChains s = []) : applyDueChains s = s := by
  unfold applyDueChains
  rw [h]
  rfl

/-- R119: the skipped count of a list of actions, action by action. -/
theorem countSkipped_eq (actions : List Action) : ∀ s : State,
    countSkipped actions s = (List.range actions.length).countP fun j =>
      actions[j]?.any fun a => actionSkipped a ((actions.take j).foldl (fun t a => applyAction a t) s) := by
  induction actions with
  | nil => exact fun _ => rfl
  | cons a rest ih =>
    intro s
    rw [countSkipped, ih, List.length_cons, List.range_succ_eq_map, List.countP_cons, List.countP_map, Nat.add_comm]
    simp [Function.comp_def]

end Sys2Proof.Machine
end

