-- ==== Sys2Proof/Laws/Chains.lean ====
section
/-! SUPPORT. Walking a chain (R113, R118), changing the slots it visits (R114, R119, R121) and issuing a handle (R115). -/

namespace Sys2Proof.Machine

/-! ## Changing listed slots -/

/-- Each listed slot is changed once, every other slot is unchanged. -/
theorem mapPoolSlots_get (f : PoolSlot → PoolSlot) (slots : List (Fin 32)) :
    ∀ (pool : Vector PoolSlot 32), slots.Nodup → ∀ i : Fin 32,
      (mapPoolSlots f slots pool)[i] = if i ∈ slots then f pool[i] else pool[i] := by
  induction slots with
  | nil => exact fun _ _ _ => rfl
  | cons j slots ih =>
    intro pool hn i
    have hn := List.nodup_cons.1 hn
    refine (ih (pool.set j (f pool[j])) hn.2 i).trans ?_
    by_cases hij : i = j
    · subst hij
      rw [if_neg hn.1, if_pos (List.mem_cons_self ..)]
      simp
    · have hne : j.val ≠ i.val := fun h => hij (Fin.ext h.symm)
      have hget : (pool.set j (f pool[j]))[i] = pool[i] := by
        simp [hne]
      rw [hget]
      simp [hij]

/-! ## Walking -/

/-- The records of the slots are linked: each names the next of the list as its Next. -/
def recordPath (pool : Vector PoolSlot 32) : List (Fin 32) → Prop
  | [] => True
  | [i] => ∃ d, slotRecord pool[i] = some d
  | i :: j :: rest => (∃ d, slotRecord pool[i] = some d ∧ d.next = some j) ∧ recordPath pool (j :: rest)

/-- The last slot of the list has this Next. -/
def recordNext (pool : Vector PoolSlot 32) (path : List (Fin 32)) (next : Option (Fin 32)) : Prop :=
  ∃ i d, path.getLast? = some i ∧ slotRecord pool[i] = some d ∧ d.next = next

/-- A list of slots with no repeat has at most 32. -/
theorem path_length_le (path : List (Fin 32)) (h : path.Nodup) : path.length ≤ 32 := by
  simpa using h.length_le_card

/-- R118: the walk of a linked run that ends is that run. -/
theorem chainSlots_of_recordPath (pool : Vector PoolSlot 32) :
    ∀ (path : List (Fin 32)) (fuel : Nat) (slot : Fin 32), path.head? = some slot → recordPath pool path →
      recordNext pool path none → path.length ≤ fuel → chainSlots pool fuel slot = path
  | [], _, _, hh, _, _, _ => by simp at hh
  | [i], 0, _, _, _, _, hl => by simp at hl
  | _ :: _ :: _, 0, _, _, _, _, hl => by simp at hl
  | [i], fuel + 1, slot, hh, _, hn, _ => by
    obtain ⟨j, d, hj, hd, hnext⟩ := hn
    simp only [List.getLast?_singleton, Option.some.injEq] at hj
    simp only [List.head?_cons, Option.some.injEq] at hh
    subst hj hh
    simp only [chainSlots, hd, hnext]
  | i :: j :: rest, fuel + 1, slot, hh, hp, hn, hl => by
    simp only [List.head?_cons, Option.some.injEq] at hh
    subst hh
    obtain ⟨⟨d, hd, hnext⟩, hp⟩ := hp
    have hn' : recordNext pool (j :: rest) none := by
      obtain ⟨k, e, hk, he⟩ := hn
      exact ⟨k, e, by simpa [List.getLast?_cons_cons] using hk, he⟩
    simp only [chainSlots, hd, hnext]
    rw [chainSlots_of_recordPath pool (j :: rest) fuel j rfl hp hn' (by simpa using hl)]

/-- A Loaded slot's record. -/
theorem loadedRecord_eq_some (x : PoolSlot) (d : Descriptor) : loadedRecord x = some d ↔ x = .loaded d := by
  cases x <;> simp [loadedRecord]

/-- R113: the walk ends at a Loaded slot, not visited before, whose Next is End. -/
theorem walkChain_at_end (pool : Vector PoolSlot 32) (visited : List (Fin 32)) (left : Nat) (slot : Fin 32) (d : Descriptor)
    (hd : pool[slot] = .loaded d) (hv : slot ∉ visited) (hn : d.next = none) :
    walkChain pool visited left slot = .sound (visited ++ [slot]) := by
  rw [walkChain.eq_def]
  dsimp only
  rw [(loadedRecord_eq_some _ d).2 hd]
  dsimp only
  rw [if_neg hv, hn]

/-- R113: the walk fails at position 31 where a Loaded slot, not visited before, has a Next. -/
theorem walkChain_at_last (pool : Vector PoolSlot 32) (visited : List (Fin 32)) (slot n : Fin 32) (d : Descriptor)
    (hd : pool[slot] = .loaded d) (hv : slot ∉ visited) (hn : d.next = some n) :
    walkChain pool visited 0 slot = .failed (visited.length + 1) .tooLong n := by
  rw [walkChain.eq_def]
  dsimp only
  rw [(loadedRecord_eq_some _ d).2 hd]
  dsimp only
  rw [if_neg hv, hn]

/-- R113: the walk goes on from a Loaded slot, not visited before, that has a Next. -/
theorem walkChain_at_slot (pool : Vector PoolSlot 32) (visited : List (Fin 32)) (left : Nat) (slot n : Fin 32) (d : Descriptor)
    (hd : pool[slot] = .loaded d) (hv : slot ∉ visited) (hn : d.next = some n) :
    walkChain pool visited (left + 1) slot = walkChain pool (visited ++ [slot]) left n := by
  rw [walkChain.eq_def]
  dsimp only
  rw [(loadedRecord_eq_some _ d).2 hd]
  dsimp only
  rw [if_neg hv, hn]

/-- R113: the walk over a linked run of Loaded slots, not visited before, that has a Next: it fails as too long at position 31, else goes on. -/
theorem walkChain_next (pool : Vector PoolSlot 32) (n : Fin 32) :
    ∀ (path visited : List (Fin 32)) (left : Nat) (slot : Fin 32), path.head? = some slot → (visited ++ path).Nodup →
      loadedPath pool path → pathNext pool path (some n) → visited.length + left = 31 →
      walkChain pool visited left slot =
        if (visited ++ path).length = 32 then .failed 32 .tooLong n
        else walkChain pool (visited ++ path) (31 - (visited ++ path).length) n
  | [], _, _, _, hh, _, _, _, _ => by simp at hh
  | [i], visited, left, slot, hh, hnd, hp, hn, hl => by
    simp only [List.head?_cons, Option.some.injEq] at hh
    subst hh
    obtain ⟨k, d, hk, hd, hnext⟩ := hn
    simp only [List.getLast?_singleton, Option.some.injEq] at hk
    subst hk
    have hnv : i ∉ visited := fun hv => (List.nodup_append.1 hnd).2.2 i hv i (List.mem_singleton_self i) rfl
    have hlen : (visited ++ [i]).length = visited.length + 1 := by simp
    cases left with
    | zero =>
      rw [if_pos (by omega), walkChain_at_last pool visited i n d hd hnv hnext]
      rw [show visited.length + 1 = 32 by omega]
    | succ left =>
      rw [if_neg (by omega), walkChain_at_slot pool visited left i n d hd hnv hnext]
      rw [show 31 - (visited ++ [i]).length = left by omega]
  | i :: j :: rest, visited, left, slot, hh, hnd, hp, hn, hl => by
    simp only [List.head?_cons, Option.some.injEq] at hh
    subst hh
    obtain ⟨⟨d, hd, hnext⟩, hp⟩ := hp
    have hnv : i ∉ visited := fun hv => (List.nodup_append.1 hnd).2.2 i hv i (List.mem_cons_self ..) rfl
    have hn' : pathNext pool (j :: rest) (some n) := by
      obtain ⟨k, e, hk, he⟩ := hn
      exact ⟨k, e, by simpa [List.getLast?_cons_cons] using hk, he⟩
    have hlen := path_length_le _ hnd
    simp only [List.length_append, List.length_cons] at hlen
    have hnd' : ((visited ++ [i]) ++ (j :: rest)).Nodup := by simpa using hnd
    cases left with
    | zero => omega
    | succ left =>
      have ih := walkChain_next pool n (j :: rest) (visited ++ [i]) left j rfl hnd' hp hn' (by simp; omega)
      rw [walkChain_at_slot pool visited left i j d hd hnv hnext]
      refine ih.trans ?_
      simp only [List.append_assoc, List.singleton_append]

/-- R113: the walk over a linked run of Loaded slots, not visited before, that ends. -/
theorem walkChain_end (pool : Vector PoolSlot 32) :
    ∀ (path visited : List (Fin 32)) (left : Nat) (slot : Fin 32), path.head? = some slot → (visited ++ path).Nodup →
      loadedPath pool path → pathNext pool path none → visited.length + left = 31 →
      walkChain pool visited left slot = .sound (visited ++ path)
  | [], _, _, _, hh, _, _, _, _ => by simp at hh
  | [i], visited, left, slot, hh, hnd, _, hn, _ => by
    simp only [List.head?_cons, Option.some.injEq] at hh
    subst hh
    obtain ⟨k, d, hk, hd, hnext⟩ := hn
    simp only [List.getLast?_singleton, Option.some.injEq] at hk
    subst hk
    have hnv : i ∉ visited := fun hv => (List.nodup_append.1 hnd).2.2 i hv i (List.mem_singleton_self i) rfl
    exact walkChain_at_end pool visited left i d hd hnv hnext
  | i :: j :: rest, visited, left, slot, hh, hnd, hp, hn, hl => by
    simp only [List.head?_cons, Option.some.injEq] at hh
    subst hh
    obtain ⟨⟨d, hd, hnext⟩, hp⟩ := hp
    have hnv : i ∉ visited := fun hv => (List.nodup_append.1 hnd).2.2 i hv i (List.mem_cons_self ..) rfl
    have hn' : pathNext pool (j :: rest) none := by
      obtain ⟨k, e, hk, he⟩ := hn
      exact ⟨k, e, by simpa [List.getLast?_cons_cons] using hk, he⟩
    have hlen := path_length_le _ hnd
    simp only [List.length_append, List.length_cons] at hlen
    have hnd' : ((visited ++ [i]) ++ (j :: rest)).Nodup := by simpa using hnd
    cases left with
    | zero => omega
    | succ left =>
      have ih := walkChain_end pool (j :: rest) (visited ++ [i]) left j rfl hnd' hp hn' (by simp; omega)
      rw [walkChain_at_slot pool visited left i j d hd hnv hnext]
      refine ih.trans ?_
      simp only [List.append_assoc, List.singleton_append]

/-- R113: a walk that proves sound begins on a Loaded slot that is not visited before. -/
theorem walkChain_sound_start (pool : Vector PoolSlot 32) (visited : List (Fin 32)) (left : Nat) (slot : Fin 32)
    (slots : List (Fin 32)) (h : walkChain pool visited left slot = .sound slots) :
    ∃ d, pool[slot] = .loaded d ∧ slot ∉ visited := by
  rw [walkChain.eq_def] at h
  dsimp only at h
  cases hl : loadedRecord pool[slot] with
  | none =>
    rw [hl] at h
    exact absurd h (by simp)
  | some d =>
    rw [hl] at h
    refine ⟨d, (loadedRecord_eq_some _ _).1 hl, fun hm => ?_⟩
    dsimp only at h
    rw [if_pos hm] at h
    exact absurd h (by simp)

/-- A list with a new last element has no repeat. -/
theorem nodup_snoc {visited : List (Fin 32)} {slot : Fin 32} (hv : visited.Nodup) (hm : slot ∉ visited) :
    (visited ++ [slot]).Nodup := by
  rw [List.nodup_append]
  exact ⟨hv, List.nodup_singleton _, fun a ha b hb => by
    rw [List.mem_singleton.1 hb]
    exact fun h => hm (h ▸ ha)⟩

/-- R113: a sound walk visited a linked run of Loaded slots with no repeat. -/
theorem walkChain_sound (pool : Vector PoolSlot 32) :
    ∀ (left : Nat) (visited : List (Fin 32)) (slot : Fin 32) (slots : List (Fin 32)), visited.Nodup →
      walkChain pool visited left slot = .sound slots →
      ∃ path, slots = visited ++ path ∧ path.head? = some slot ∧ slots.Nodup ∧ loadedPath pool path ∧ pathNext pool path none := by
  intro left
  induction left with
  | zero =>
    intro visited slot slots hv h
    obtain ⟨d, hd, hm⟩ := walkChain_sound_start pool visited 0 slot slots h
    cases hnext : d.next with
    | none =>
      rw [walkChain_at_end pool visited 0 slot d hd hm hnext] at h
      simp only [WalkResult.sound.injEq] at h
      exact ⟨[slot], h.symm, rfl, h ▸ nodup_snoc hv hm, ⟨d, hd⟩, slot, d, rfl, hd, hnext⟩
    | some n =>
      rw [walkChain_at_last pool visited slot n d hd hm hnext] at h
      exact absurd h (by simp)
  | succ left ih =>
    intro visited slot slots hv h
    obtain ⟨d, hd, hm⟩ := walkChain_sound_start pool visited (left + 1) slot slots h
    cases hnext : d.next with
    | none =>
      rw [walkChain_at_end pool visited (left + 1) slot d hd hm hnext] at h
      simp only [WalkResult.sound.injEq] at h
      exact ⟨[slot], h.symm, rfl, h ▸ nodup_snoc hv hm, ⟨d, hd⟩, slot, d, rfl, hd, hnext⟩
    | some n =>
      rw [walkChain_at_slot pool visited left slot n d hd hm hnext] at h
      obtain ⟨path, hs, hh, hn, hp, hnone⟩ := ih _ _ _ (nodup_snoc hv hm) h
      cases path with
      | nil => simp at hh
      | cons j rest =>
        simp only [List.head?_cons, Option.some.injEq] at hh
        subst hh
        obtain ⟨k, e, hk, he⟩ := hnone
        exact ⟨slot :: j :: rest, by simpa using hs, rfl, hn, ⟨⟨d, hd, hnext⟩, hp⟩, k, e,
          by simpa [List.getLast?_cons_cons] using hk, he⟩

/-! ## Handles (R115) -/

/-- R115: candidate `j` follows candidate `j - 1`. -/
theorem nextHandle_candidate (last : Byte) (j : Nat) : nextHandle (handleCandidate last j) = handleCandidate last (j + 1) := by
  have hmod : (last.toNat + j) % 255 < 255 := Nat.mod_lt _ (by omega)
  have h1 : (1 : Byte).toNat = 1 := rfl
  have h255 : (255 : Byte).toNat = 255 := rfl
  apply BitVec.eq_of_toNat_eq
  unfold nextHandle handleCandidate
  by_cases h : (last.toNat + j) % 255 = 254
  · have h' : (last.toNat + (j + 1)) % 255 = 0 := by omega
    simp [h, h']
  · have h' : (last.toNat + (j + 1)) % 255 = (last.toNat + j) % 255 + 1 := by omega
    rw [if_neg]
    · simp only [BitVec.toNat_add, BitVec.toNat_ofNat, h']
      omega
    · intro heq
      have := congrArg BitVec.toNat heq
      simp only [BitVec.toNat_ofNat] at this
      omega

/-- R115: the first candidate is the last handle issued plus one. -/
theorem handleCandidate_zero (last : Byte) : nextHandle last = handleCandidate last 0 := by
  revert last; decide

/-- R115: a candidate is never 0. -/
theorem handleCandidate_ne_zero (last : Byte) (j : Nat) : handleCandidate last j ≠ 0 := by
  have hmod : (last.toNat + j) % 255 < 255 := Nat.mod_lt _ (by omega)
  have h0 : (0 : Byte).toNat = 0 := rfl
  intro h
  have := congrArg BitVec.toNat h
  simp only [handleCandidate, BitVec.toNat_ofNat] at this
  omega

/-- R115: candidates within one round differ. -/
theorem handleCandidate_injective (last : Byte) (i j : Nat) (hi : i < 255) (hj : j < 255)
    (h : handleCandidate last i = handleCandidate last j) : i = j := by
  have := congrArg BitVec.toNat h
  simp only [handleCandidate, BitVec.toNat_ofNat] at this
  omega

/-- R115: the search passes over pending candidates and stops at the first that is free, or after `fuel` of them. -/
theorem freshHandle_spec (queue : List PendingChain) (last : Byte) :
    ∀ (fuel j : Nat), ∃ k ≤ fuel, freshHandle queue fuel (handleCandidate last j) = handleCandidate last (j + k) ∧
      (∀ i < k, ∃ c ∈ queue, c.handle = handleCandidate last (j + i)) ∧
      (k < fuel → ∀ c ∈ queue, c.handle ≠ handleCandidate last (j + k)) := by
  intro fuel
  induction fuel with
  | zero => exact fun j => ⟨0, Nat.le_refl _, rfl, fun i hi => absurd hi (Nat.not_lt_zero _), fun h => absurd h (Nat.lt_irrefl _)⟩
  | succ fuel ih =>
    intro j
    unfold freshHandle
    by_cases ha : queue.any (fun c => c.handle == handleCandidate last j) = true
    · rw [if_pos ha, nextHandle_candidate]
      obtain ⟨k, hk, heq, hp, hf⟩ := ih (j + 1)
      refine ⟨k + 1, by omega, by rw [heq]; congr 1; omega, ?_, ?_⟩
      · intro i hi
        cases i with
        | zero => simpa using ha
        | succ i =>
          obtain ⟨c, hc, hh⟩ := hp i (by omega)
          exact ⟨c, hc, by rw [hh]; congr 1; omega⟩
      · intro hlt c hc
        rw [show j + (k + 1) = j + 1 + k by omega]
        exact hf (by omega) c hc
    · rw [if_neg ha]
      refine ⟨0, Nat.zero_le _, rfl, fun i hi => absurd hi (Nat.not_lt_zero _), fun _ c hc heq => ha ?_⟩
      simp only [List.any_eq_true, beq_iff_eq]
      exact ⟨c, hc, heq⟩

/-- R115: with at most three chains pending, one of the first four candidates is free. -/
theorem freshHandle_free (queue : List PendingChain) (last : Byte) (hq : queue.length < 4) :
    ∃ k < 4, freshHandle queue 4 (nextHandle last) = handleCandidate last k ∧
      (∀ i < k, ∃ c ∈ queue, c.handle = handleCandidate last i) ∧ ∀ c ∈ queue, c.handle ≠ handleCandidate last k := by
  obtain ⟨k, hk, heq, hp, hf⟩ := freshHandle_spec queue last 4 0
  simp only [Nat.zero_add] at heq hp hf
  have hlt : k < 4 := by
    refine Nat.lt_of_le_of_ne hk fun h4 => ?_
    subst h4
    have hsub : (List.range 4).map (handleCandidate last) ⊆ queue.map fun c => c.handle := by
      intro x hx
      obtain ⟨i, hi, rfl⟩ := List.mem_map.1 hx
      obtain ⟨c, hc, hh⟩ := hp i (List.mem_range.1 hi)
      exact List.mem_map.2 ⟨c, hc, hh⟩
    have hnd : ((List.range 4).map (handleCandidate last)).Nodup := by
      refine List.Nodup.map_on (fun i hi j hj h => ?_) List.nodup_range
      have hi := List.mem_range.1 hi
      have hj := List.mem_range.1 hj
      exact handleCandidate_injective last i j (by omega) (by omega) h
    have := (List.subperm_of_subset hnd hsub).length_le
    simp at this
    omega
  exact ⟨k, hlt, by rw [handleCandidate_zero]; exact heq, hp, hf hlt⟩

end Sys2Proof.Machine
end

