-- ==== Sys2Proof/Laws/Keys.lean ====
section
/-! SUPPORT. What the operations of the scanner and the key event queue do: the forced release (R130), admission and offers (R149, R151, R152),
the Down count under a change of one key, the lines of wake scanning (R142), an open reading of a
key (R134) and what a pass reads (R132, R136). -/

namespace Sys2Proof.Machine

/-! ## The forced release -/

/-- R130, step 1, over any list of keys without repeats: the records of the reported ones join the queue in order, and beyond that only
key states change. -/
theorem forceReported_fold (s : State) (l : List (Fin 64)) :
    ∀ t : State, l.Nodup → (∀ k ∈ l, t.scanner.states[k] = s.scanner.states[k]) →
      ∃ states, l.foldl (fun t k =>
          if t.scanner.states[k].reported then releaseReported .forcedRelease k s.time.ticks t else t) t =
        { t with
          scanner := { t.scanner with states := states }
          keys := { t.keys with events := t.keys.events ++ l.filterMap fun k =>
            if s.scanner.states[k].reported then some { kind := .forcedRelease, key := keyByte k, time := s.time.ticks }
            else none } } := by
  induction l with
  | nil => exact fun t _ _ => ⟨t.scanner.states, by simp⟩
  | cons k l ih =>
    intro t hn hk
    have hn := List.nodup_cons.1 hn
    have hkk := hk k (List.mem_cons_self ..)
    rw [List.foldl_cons, hkk]
    by_cases hr : s.scanner.states[k].reported = true
    · rw [if_pos hr]
      have hset : ∀ j ∈ l, (releaseReported .forcedRelease k s.time.ticks t).scanner.states[j] = s.scanner.states[j] := by
        intro j hj
        have hne : k.val ≠ j.val := fun h => hn.1 (Fin.ext h ▸ hj)
        rw [← hk j (List.mem_cons_of_mem _ hj)]
        simp [releaseReported, setKeyState, appendEvent, hne]
      obtain ⟨states, h⟩ := ih _ hn.2 hset
      refine ⟨states, h.trans ?_⟩
      rw [List.filterMap_cons_some (by rw [if_pos hr])]
      simp [releaseReported, setKeyState, appendEvent]
    · rw [if_neg hr]
      obtain ⟨states, h⟩ := ih t hn.2 fun j hj => hk j (List.mem_cons_of_mem _ hj)
      refine ⟨states, h.trans ?_⟩
      rw [List.filterMap_cons_none (by rw [if_neg hr])]

/-- R130: the forced release: every record, every key Idle, both episodes and the repeat ended; nothing else changes. -/
theorem forcedRelease_eq (s : State) :
    forcedRelease s =
      { s with
        scanner := { s.scanner with
          states := Vector.replicate 64 .idle, ghost := false, rollover := false, owner := none, repeatTimer := none }
        keys := { s.keys with events := s.keys.events ++ forcedReleases s } } := by
  obtain ⟨states, h⟩ := forceReported_fold s (List.finRange 64) s (List.nodup_finRange 64) fun _ _ => rfl
  unfold forcedRelease forceReported
  rw [h]
  rfl

/-! ## The Down count -/

/-- The number of elements of a vector that satisfy a test, when one element is replaced. -/
theorem countP_set {n : Nat} {α : Type} (p : α → Bool) (v : Vector α n) (i : Fin n) (x : α) :
    (v.set i x).toList.countP p + (if p v[i] then 1 else 0) = v.toList.countP p + (if p x then 1 else 0) := by
  have hi : i.val < v.toList.length := by simp
  rw [Vector.toList_set, List.countP_set hi]
  have hget : v.toList[i.val] = v[i] := by simp
  rw [hget]
  have hpos : p v[i] = true → 1 ≤ v.toList.countP p := by
    intro h
    exact List.countP_pos_iff.2 ⟨v[i], by simp, h⟩
  by_cases h : p v[i] = true
  · have := hpos h
    simp only [h, if_true]
    omega
  · simp only [h, Bool.false_eq_true, if_false]
    omega

/-- Section 7.5: the Down count after one key's state is replaced. -/
theorem downCount_setKeyState (k : Fin 64) (st : KeyState) (s : State) :
    downCount (setKeyState k st s) + (if s.scanner.states[k].reported then 1 else 0) =
      downCount s + (if st.reported then 1 else 0) :=
  countP_set KeyState.reported s.scanner.states k st

/-- With every key Idle the Down count is 0. -/
theorem downCount_allKeysIdle (s : State) : downCount (allKeysIdle s) = 0 := by
  simp [downCount, allKeysIdle, KeyState.reported]

/-! ## The lines of wake scanning -/

/-- R142, R143: a line reads closed where some contact on it is closed. -/
theorem lineClosed_iff (c : ScanConfig) (contacts : KeySet) (line : Nat) (hd : c.drives ≤ 10) (hl : line < 10) :
    lineClosed c contacts line = true ↔ ∃ j : Fin 64, onLine c line j ∧ contacts.getLsbD j.val = true := by
  unfold lineClosed lineKeys onLine matrixKey
  by_cases h : line < 6
  · simp only [h, if_true, List.any_map, List.any_eq_true, List.mem_range, Function.comp_apply, true_and]
    constructor
    · rintro ⟨d, hd', hc⟩
      exact ⟨⟨d * 6 + line, by omega⟩, .inl ⟨by simp only; omega, by simp only; omega, by simp only; omega⟩, hc⟩
    · rintro ⟨j, hj | hj, hc⟩
      · exact ⟨j.val / 6, hj.2.2, by rwa [← hj.2.1, Nat.div_add_mod']⟩
      · omega
  · simp only [h, if_false, List.any_cons, List.any_nil, Bool.or_false, false_and, false_or]
    constructor
    · exact fun hc => ⟨⟨line + 54, by omega⟩, ⟨by omega, rfl⟩, hc⟩
    · rintro ⟨j, hj, hc⟩
      rwa [← hj.2]

/-- R142: which lines are armed as wake scanning begins, in terms of `lineWatched` and `lineClosed`. -/
theorem openLines_getLsbD (c : ScanConfig) (contacts : KeySet) (line : Nat) (hl : line < 10) :
    (openLines c contacts).getLsbD line = (lineWatched c line && !lineClosed c contacts line) := by
  have fold : ∀ (f : Nat → Bool) (l : List Nat) (acc : BitVec 10),
      (l.foldl (fun acc n => if f n then acc ||| BitVec.twoPow 10 n else acc) acc).getLsbD line =
        (acc.getLsbD line || (l.contains line && f line)) := by
    intro f l
    induction l with
    | nil => simp
    | cons n l ih =>
      intro acc
      rw [List.foldl_cons, ih]
      by_cases e : line = n
      · subst e
        by_cases hf : f line = true <;> simp [hf, hl]
      · have e' : ¬ n = line := fun h => e h.symm
        by_cases hf : f n = true <;> simp [hf, e, e', BitVec.getLsbD_twoPow]
  unfold openLines
  rw [fold (fun line => lineWatched c line && !lineClosed c contacts line)]
  simp [hl]

/-- R134: an open reading makes a reported key Idle. -/
def letsGo (d : Nat) (st : KeyState) : Bool := st.reported && !(openedState d st).reported

/-- R134: an open reading makes no key reported. -/
theorem reported_of_opened (d : Nat) (st : KeyState) (h : (openedState d st).reported = true) : st.reported = true := by
  cases st <;> simp only [openedState] at h <;> (try split at h) <;> first | rfl | cases h

/-- R134, R138, R140: all that an open reading of an enabled key does. -/
theorem readOpen_eq (k : Fin 64) (t : State) :
    readOpen k t =
      let st := t.scanner.states[k]
      let states := t.scanner.states.set k (openedState t.scanner.config.settle st)
      let gone := letsGo t.scanner.config.settle st = true
      { t with
        keys := { t.keys with
          events := t.keys.events ++
            if gone then [{ kind := .release, key := keyByte k, time := t.time.ticks }] else [] }
        scanner := { t.scanner with
          states := states
          owner := if gone ∧ t.scanner.owner = some k then none else t.scanner.owner
          repeatTimer := if gone ∧ t.scanner.owner = some k then none else t.scanner.repeatTimer
          rollover := if gone ∧ states.toList.countP KeyState.reported < 8 then false else t.scanner.rollover } } := by
  have settle : ∀ n : Nat, ∀ st : KeyState, t.scanner.states[k] = st → st.reported = true →
      openedState t.scanner.config.settle st = (if t.scanner.config.settle ≤ n then .idle else .settlingUp n) →
      settleUp k n t =
        let states := t.scanner.states.set k (openedState t.scanner.config.settle st)
        let gone := letsGo t.scanner.config.settle st = true
        { t with
          keys := { t.keys with
            events := t.keys.events ++
              if gone then [{ kind := .release, key := keyByte k, time := t.time.ticks }] else [] }
          scanner := { t.scanner with
            states := states
            owner := if gone ∧ t.scanner.owner = some k then none else t.scanner.owner
            repeatTimer := if gone ∧ t.scanner.owner = some k then none else t.scanner.repeatTimer
            rollover := if gone ∧ states.toList.countP KeyState.reported < 8 then false else t.scanner.rollover } } := by
    intro n st hs hr ho
    unfold settleUp
    by_cases hn : t.scanner.config.settle ≤ n
    · rw [if_pos hn] at ho ⊢
      have hg : letsGo t.scanner.config.settle st = true := by simp only [letsGo, hr, ho]; rfl
      rw [ho]
      simp only [hg, if_true, true_and]
      by_cases hk : t.scanner.owner = some k <;>
        by_cases hc : (t.scanner.states.set k KeyState.idle).toList.countP KeyState.reported < 8 <;>
          simp [endRollover, clearOwnerIf, clearOwner, releaseReported, setKeyState, appendEvent, downCount, Config.keysDownMax, hk] <;>
          simp only [Vector.countP_toList] at hc <;> simp [hc]
    · rw [if_neg hn] at ho ⊢
      have hg : letsGo t.scanner.config.settle st = false := by simp [letsGo, ho, KeyState.reported]
      rw [ho]
      simp [hg, setKeyState]
  unfold readOpen
  split
  · rename_i h
    have hset : t.scanner.states.set k .idle = t.scanner.states := by
      conv_lhs => rw [← h]
      exact Vector.set_getElem_self _
    simp only [h, openedState, hset]
    simp [letsGo, KeyState.reported]
  · rename_i h
    simp [h, letsGo, openedState, KeyState.reported, setKeyState]
  · rename_i h
    rw [settle 1 _ h rfl rfl, h]
  · rename_i n h
    rw [settle (n + 1) _ h rfl rfl, h]
  · rename_i m h
    by_cases hm : t.scanner.config.settle ≤ m + 1 <;> simp [h, letsGo, openedState, KeyState.reported, setKeyState, hm]

/-! ## What a pass reads (R132, R136) -/

/-- Which keys a test puts into a set. -/
theorem keysWhere_getLsbD (f : Nat → Bool) (k : Nat) : (keysWhere f).getLsbD k = (decide (k < 64) && f k) := by
  have fold : ∀ (l : List Nat) (acc : KeySet), (∀ n ∈ l, n < 64) →
      (l.foldl (fun acc n => if f n then acc ||| BitVec.twoPow 64 n else acc) acc).getLsbD k =
        (acc.getLsbD k || (l.contains k && f k)) := by
    intro l
    induction l with
    | nil => simp
    | cons n l ih =>
      intro acc hl
      have hn := hl n (List.mem_cons_self ..)
      rw [List.foldl_cons, ih _ fun m hm => hl m (List.mem_cons_of_mem _ hm)]
      by_cases e : k = n
      · subst e
        by_cases hf : f k = true <;> simp [hf, hn]
      · have e' : ¬ n = k := fun h => e h.symm
        by_cases hf : f n = true <;> simp [hf, e, e', BitVec.getLsbD_twoPow]
  unfold keysWhere
  rw [fold _ _ fun n hn => List.mem_range.1 hn]
  simp

/-- R125: the keys that a scan configuration makes active, in terms of `activeKey`. -/
theorem keyActive_iff (c : ScanConfig) (k : Nat) : keyActive c k = true ↔ activeKey c k := by
  simp only [keyActive, Bool.or_eq_true, Bool.and_eq_true, decide_eq_true_eq]
  rfl

/-- R125, R132: what is read of lines that show these keys closed. -/
theorem sampled_getLsbD (c : ScanConfig) (closed : KeySet) (k : Nat) :
    (sampled c closed).getLsbD k = true ↔ closed.getLsbD k = true ∧ activeKey c k := by
  rw [sampled, BitVec.getLsbD_and, Bool.and_eq_true, keysWhere_getLsbD, Bool.and_eq_true, keyActive_iff]
  exact ⟨fun h => ⟨h.1, h.2.2⟩, fun h => ⟨h.1, by simpa using BitVec.lt_of_getLsbD h.1, h.2⟩⟩

/-- R136: the ambiguous keys, in terms of `cornersHold`. -/
theorem ambiguous_iff (raw : KeySet) (k : Nat) :
    ambiguous raw k = true ↔ cornersHold (fun n => raw.getLsbD n = true) k := by
  simp only [ambiguous, cornersHold, driveLine, senseLine, matrixKey, Bool.and_eq_true, decide_eq_true_eq, List.any_eq_true, List.mem_range,
    bne_iff_ne, ne_eq]
  exact and_congr_right fun _ =>
    ⟨fun ⟨s, hs, ⟨hne, hrow⟩, d, hd, ⟨hne', hcolumn⟩, hcorner⟩ => ⟨d, s, hd, hs, hne', hne, hrow, hcolumn, hcorner⟩,
      fun ⟨d, s, hd, hs, hne', hne, hrow, hcolumn, hcorner⟩ => ⟨s, hs, ⟨hne, hrow⟩, d, hd, ⟨hne', hcolumn⟩, hcorner⟩⟩

/-- R132, R136: the keys that so many rounds join, in terms of `joinedWithin`. -/
theorem joined_getLsbD (c : ScanConfig) (contacts : KeySet) (rounds : Nat) (k : Nat) :
    (joined c contacts rounds).getLsbD k = true ↔ joinedWithin c contacts rounds k := by
  induction rounds generalizing k with
  | zero => exact sampled_getLsbD c contacts k
  | succ rounds ih =>
    have hlt : cornersHold (joinedWithin c contacts rounds) k → k < 64 := fun h => Nat.lt_trans h.1 (by decide)
    simp only [joined, joinedWithin, BitVec.getLsbD_or, Bool.or_eq_true, fourthCorners, keysWhere_getLsbD, Bool.and_eq_true, decide_eq_true_eq,
      keyActive_iff, ambiguous_iff, ih]
    exact or_congr_right ⟨fun h => h.2, fun h => ⟨hlt h.2, h⟩⟩

/-- R132, R136: which keys the lines show closed. -/
theorem linesShow_getLsbD (longGhosts : KeySet) (s : State) (k : Nat) :
    (linesShow longGhosts s).getLsbD k = true ↔
      joinedWithin s.scanner.config s.pins.contacts 1 k ∨
        (longGhosts.getLsbD k = true ∧ joinedWithin s.scanner.config s.pins.contacts 3 k) := by
  simp only [linesShow, BitVec.getLsbD_or, BitVec.getLsbD_and, Bool.or_eq_true, Bool.and_eq_true, joined_getLsbD]

end Sys2Proof.Machine
end

