-- ==== Sys2Proof/Laws/Steps.lean ====
section
/-! SUPPORT. What the operations that end a step or change the power state do, in the terms of Sys2Proof/Safety.lean (R32, R43, R94, R130, R177, R180). -/

namespace Sys2Proof.Machine

/-- R43: the saturating count of the model is the one that claims use. -/
theorem saturate_eq_counted (b : Byte) : saturate b = counted b := by
  unfold saturate counted
  by_cases h : b = 255
  · subst h
    rfl
  · have hn : ¬ b.toNat = 255 := fun hn => h (BitVec.eq_of_toNat_eq hn)
    rw [if_neg h, if_neg hn]

/-- R175, R177: the whole effect of the entry to a low-power state. -/
theorem enterLowPower_eq (p : PowerState) (s : State) : enterLowPower p s = lowered p s := by
  unfold enterLowPower
  rw [forcedRelease_eq]
  rfl

/-- R177: the entry conditions of Sleep. -/
theorem sleepReady_iff (s : State) :
    sleepReady s = true ↔
      s.power.state = .sleepPending ∧ s.link.ring = [] ∧ assemblerCode s.link.assembler = 0 ∧ s.link.holding = none := by
  simp [sleepReady, and_assoc]

/-- R177: the entry to Sleep at the end of a step. -/
theorem enterSleepIfReady_eq (s : State) : enterSleepIfReady s = sleptIfQuiet s := by
  unfold enterSleepIfReady sleptIfQuiet
  by_cases h : sleepReady s = true
  · rw [if_pos h, if_pos ((sleepReady_iff s).1 h), enterLowPower_eq]
  · rw [if_neg h, if_neg fun hq => h ((sleepReady_iff s).2 hq)]

/-- R30: the engine runs in Run and in Doze. -/
theorem engineRuns_iff_run_or_doze (p : PowerState) : engineRuns p = true ↔ p = .run ∨ p = .doze := by
  cases p <;> simp [engineRuns]

/-- R32: the turn of a Rejected slot at the end of a step. -/
theorem buildReject_eq (s : State) : buildReject s = withReject s := by
  unfold buildReject withReject frontRejection
  cases hs : s.requests.slots with
  | nil => simp
  | cons front rest =>
    obtain ⟨stage, stored⟩ := front
    cases stage <;>
      simp [holdAnswer, rejectParcel, Slot.tag, Slot.kind, byteAt, setFrontStage, hs, engineRuns_iff_run_or_doze]

/-- R32, R177: what the end of a step does. -/
theorem closeStep_eq (s : State) : closeStep s = sleptIfQuiet (withReject s) := by
  unfold closeStep
  rw [buildReject_eq, enterSleepIfReady_eq]

/-- R32: a REJECT is built only where one is due. -/
theorem withReject_eq_self (s : State) (h : rejectionDue s = false) : withReject s = s := by
  rw [← buildReject_eq]
  unfold buildReject
  split
  · next hc =>
    have hn : frontRejection s = none := by
      have : (frontRejection s).isSome = false := by
        simpa [rejectionDue, hc.1, hc.2] using h
      simpa using this
    rw [hn]
  · rfl

/-- R177: Sleep is entered only where it is ready. -/
theorem sleptIfQuiet_eq_self (s : State) (h : sleepReady s = false) : sleptIfQuiet s = s := by
  rw [← enterSleepIfReady_eq]
  unfold enterSleepIfReady
  rw [h]
  rfl

/-- R32, R177: the end of a step that leaves a settled state changes nothing. -/
theorem closeStep_of_settled (s : State) (h : Settled s) : closeStep s = s := by
  rw [closeStep_eq, withReject_eq_self s h.1, sleptIfQuiet_eq_self s h.2]

/-- R32: an engine that is not Idle builds no REJECT. -/
theorem withReject_of_busy (s : State) (h : s.requests.engine ≠ .idle) : withReject s = s :=
  withReject_eq_self s (by simp [rejectionDue, h])

/-- R32: in Starting, Sleep-Pending and Sleep no REJECT is built. -/
theorem withReject_of_stopped (s : State) (h : engineRuns s.power.state = false) : withReject s = s :=
  withReject_eq_self s (by simp [rejectionDue, h])

/-- R32: after the turn of a Rejected slot none is due. -/
theorem rejectionDue_withReject (s : State) : rejectionDue (withReject s) = false := by
  rw [← buildReject_eq]
  unfold buildReject
  by_cases hc : s.requests.engine = .idle ∧ engineRuns s.power.state = true
  · rw [if_pos hc]
    cases hf : frontRejection s with
    | none => simp [rejectionDue, hf]
    | some fr => simp [rejectionDue, holdAnswer]
  · rw [if_neg hc]
    simp only [rejectionDue, Bool.and_eq_false_iff]
    by_cases he : s.requests.engine = .idle
    · exact .inl (.inr (by simpa using fun h => hc ⟨he, h⟩))
    · exact .inl (.inl (by simpa using he))

/-- R32: the turn of a Rejected slot changes the queue and the engine alone. -/
theorem withReject_requests (s : State) : withReject s = { s with requests := (withReject s).requests } := by
  unfold withReject
  cases hs : s.requests.slots with
  | nil => rfl
  | cons front rest =>
    obtain ⟨stage, stored⟩ := front
    cases stage
    case waitingRejected => simp only; split <;> rfl
    all_goals rfl

/-- R32, R177: every step that ends with the end of a step leaves a settled state. -/
theorem settled_closeStep (s : State) : Settled (closeStep s) := by
  rw [closeStep_eq]
  by_cases h : sleepReady (withReject s) = true
  · have hq := (sleepReady_iff _).1 h
    unfold sleptIfQuiet
    rw [if_pos hq]
    exact ⟨by simp [rejectionDue, lowered, engineRuns], by simp [sleepReady, lowered]⟩
  · have h := Bool.eq_false_iff.2 h
    rw [sleptIfQuiet_eq_self _ h]
    exact ⟨rejectionDue_withReject s, h⟩

/-- R168, R169: the watch count is all that a restart of the watch changes. -/
theorem loadWatch_eq (s : State) :
    loadWatch s = { s with time :=
      if s.time.watchPeriod ≠ 0 ∧ s.time.link = .live then
        { s.time with watchCount := BitVec.ofNat 16 (s.time.watchPeriod.toNat * 100) }
      else s.time } := by
  unfold loadWatch
  split <;> rfl

/-- R180: the whole effect of a return to Run. -/
theorem returnToRun_eq (s : State) :
    returnToRun s =
      { resumed s with
        notices := { s.notices with sticky := s.notices.sticky ||| (returnNotice s.power.state).word }
        time :=
          if s.power.state = .sleep ∧ s.time.watchPeriod ≠ 0 ∧ s.time.link = .live then
            { s.time with watchCount := BitVec.ofNat 16 (s.time.watchPeriod.toNat * 100) }
          else s.time } := by
  unfold returnToRun
  by_cases h : s.power.state = .sleep
  · simp only [h, if_true, true_and, loadWatch_eq]
    rfl
  · simp only [h, if_false, false_and]
    rfl

end Sys2Proof.Machine
end

