-- ==== Sys2Proof/Laws/Link.lean ====
section
/-! SUPPORT. What the operations of the Parcel Assembler do (R7, R12, R13, R15, R16). -/

namespace Sys2Proof.Machine

/-- R13: a legal Length byte. -/
theorem legalLength_iff (b : Byte) : legalLength b = true ↔ 3 ≤ b.toNat ∧ b.toNat ≤ 63 := by
  unfold legalLength inRange Config.minLength Config.maxLength
  rw [Bool.and_eq_true, decide_eq_true_iff, decide_eq_true_iff]

/-- R7: the assembler takes the held byte where it is in one of its power states and, in Await Length, a slot is Free. -/
theorem exec_byteTaken_of_able (s : State) (b : Byte) (hb : s.link.holding = some b)
    (hp : s.power.state = .run ∨ s.power.state = .doze ∨ s.power.state = .sleepPending)
    (ha : assemblerCode s.link.assembler ≠ 0 ∨ s.requests.slots.length < 4) :
    exec .byteTaken s = .next (closeStep (handleByte b (emptyHolding s))) := by
  have hable : ableToTake s = true := by
    unfold ableToTake queueFill Config.requestSlots
    rw [Bool.and_eq_true, Bool.or_eq_true (assemblerCode _ != 0)]
    refine ⟨?_, ha.imp (fun h => bne_iff_ne.2 h) (fun h => decide_eq_true h)⟩
    rcases hp with h | h | h <;> rw [h] <;> rfl
  simp only [exec, execByteTaken, takingStep, hb, hable, if_true]

/-- R15, R16: a change of the Filling slot, which stands last. -/
theorem onFilling_last (f : Slot → Slot) (front : List Slot) (x : Slot) (hx : x.stage = .filling)
    (h : ∀ slot ∈ front, slot.stage ≠ .filling) : onFilling f (front ++ [x]) = front ++ [f x] := by
  unfold onFilling
  rw [List.map_append]
  congr 1
  · conv => rhs; rw [← List.map_id front]
    apply List.map_congr_left
    intro a ha
    rw [if_neg (h a ha)]
    rfl
  · simp [hx]

/-- R16: the Filling slot, which stands last. -/
theorem fillingSlot_last (front : List Slot) (x : Slot) (hx : x.stage = .filling)
    (h : ∀ slot ∈ front, slot.stage ≠ .filling) : fillingSlot (front ++ [x]) = some x := by
  unfold fillingSlot
  rw [List.find?_append]
  have hnone : front.find? (fun slot => decide (slot.stage = .filling)) = none := by
    rw [List.find?_eq_none]
    intro a ha
    simpa using h a ha
  rw [hnone]
  simp [hx]

/-- R12: a Kind is in the companion's direction where it is 0x80 or above. -/
theorem direction_iff (kind : Byte) : kind.getLsbD 7 = true ↔ 0x80 ≤ kind.toNat := by
  have h := BitVec.msb_eq_decide kind
  rw [BitVec.msb_eq_getLsbD_last] at h
  simp only [Nat.add_one_sub_one] at h
  rw [h, decide_eq_true_iff]

end Sys2Proof.Machine
end

