-- ==== Sys2Proof/Laws/Offers.lean ====
section
/-! SUPPORT. What an offered key event does (R149, R151, R152). -/

namespace Sys2Proof.Machine

/-- R152: the LOST marker, where it is due. -/
theorem queueLost_eq (time : Word) (s : State) :
    queueLost time s = { s with keys :=
      if s.keys.dropped ≠ 0 ∧ downCount s + 1 ≤ freePlaces s then
        { events := s.keys.events ++ [{ kind := .lost, key := s.keys.dropped, time := time }], dropped := 0 }
      else s.keys } := by
  unfold queueLost
  split <;> rfl

/-- R149, R151, R152: an offered event is admitted or refused against the queue as the LOST rule left it. -/
theorem offer_eq (kind : EventKind) (key : Byte) (time : Word) (s : State) :
    offer kind key time s =
      if downCount s + placesNeeded kind ≤ freePlaces (queueLost time s) then
        { s with keys :=
          { events := (queueLost time s).keys.events ++ [{ kind := kind, key := key, time := time }]
            dropped := (queueLost time s).keys.dropped } }
      else
        { s with
          keys :=
            { events := (queueLost time s).keys.events, dropped := counted (queueLost time s).keys.dropped }
          counters := { s.counters with lostKey := counted s.counters.lostKey }
          notices := { s.notices with sticky := s.notices.sticky ||| Notice.keyLoss.word } } := by
  have hd : downCount (queueLost time s) = downCount s := by
    rw [queueLost_eq]
    rfl
  unfold offer admits
  rw [hd]
  by_cases h : downCount s + placesNeeded kind ≤ freePlaces (queueLost time s)
  · rw [if_pos (decide_eq_true h), if_pos h, queueLost_eq]
    rfl
  · have hf : ¬ decide (downCount s + placesNeeded kind ≤ freePlaces (queueLost time s)) = true := by
      rw [decide_eq_true_iff]
      exact h
    rw [if_neg hf, if_neg h, queueLost_eq]
    simp only [refuseEvent, raise, saturate_eq_counted]

/-- R149: an offered event changes nothing of the scanner. -/
theorem offer_scanner (kind : EventKind) (key : Byte) (time : Word) (s : State) :
    (offer kind key time s).scanner = s.scanner := by
  rw [offer_eq]
  split <;> rfl

/-- R148: an offered event leaves the Down count. -/
theorem downCount_offer (kind : EventKind) (key : Byte) (time : Word) (s : State) :
    downCount (offer kind key time s) = downCount s := by
  unfold downCount
  rw [offer_scanner]

end Sys2Proof.Machine
end

