-- ==== Sys2Proof/Laws/Requests.lean ====
section
/-! SUPPORT. What an execution step can do (R30, R36, R37): it does not fall due, or the checks fail and only the queue and the engine change,
or the effect is made and the REPLY is held. -/

namespace Sys2Proof.Machine

@[simp] theorem setFrontStage_setFrontStage (a b : SlotStage) (slots : List Slot) :
    setFrontStage a (setFrontStage b slots) = setFrontStage a slots := by
  cases slots <;> rfl

@[simp] theorem setFrontStage_length (a : SlotStage) (slots : List Slot) : (setFrontStage a slots).length = slots.length := by
  cases slots <;> rfl

@[simp] theorem setFrontStage_tail (a : SlotStage) (slots : List Slot) : (setFrontStage a slots).tail = slots.tail := by
  cases slots <;> rfl

@[simp] theorem beginExecution_slots (s : State) : (beginExecution s).requests.slots = setFrontStage .executing s.requests.slots := rfl
@[simp] theorem beginExecution_engine (s : State) : (beginExecution s).requests.engine = .executing := rfl
@[simp] theorem beginExecution_link (s : State) : (beginExecution s).link = s.link := rfl
@[simp] theorem beginExecution_counters (s : State) : (beginExecution s).counters = s.counters := rfl
@[simp] theorem beginExecution_canvas (s : State) : (beginExecution s).canvas = s.canvas := rfl
@[simp] theorem beginExecution_views (s : State) : (beginExecution s).views = s.views := rfl
@[simp] theorem beginExecution_panel (s : State) : (beginExecution s).panel = s.panel := rfl
@[simp] theorem beginExecution_frames (s : State) : (beginExecution s).frames = s.frames := rfl
@[simp] theorem beginExecution_staging (s : State) : (beginExecution s).staging = s.staging := rfl
@[simp] theorem beginExecution_chains (s : State) : (beginExecution s).chains = s.chains := rfl
@[simp] theorem beginExecution_scanner (s : State) : (beginExecution s).scanner = s.scanner := rfl
@[simp] theorem beginExecution_keys (s : State) : (beginExecution s).keys = s.keys := rfl
@[simp] theorem beginExecution_notices (s : State) : (beginExecution s).notices = s.notices := rfl
@[simp] theorem beginExecution_time (s : State) : (beginExecution s).time = s.time := rfl
@[simp] theorem beginExecution_power (s : State) : (beginExecution s).power = s.power := rfl
@[simp] theorem beginExecution_pins (s : State) : (beginExecution s).pins = s.pins := rfl
@[simp] theorem beginExecution_pending (s : State) : (beginExecution s).pending = s.pending := rfl

/-- The Kind, Tag and payload of a stored parcel. -/
theorem slot_stored_fields (stage : SlotStage) (kind tag check : Byte) (payload : List Byte) :
    Slot.kind { stage := stage, stored := kind :: tag :: (payload ++ [check]) } = kind ∧
      Slot.tag { stage := stage, stored := kind :: tag :: (payload ++ [check]) } = tag ∧
      Slot.payload { stage := stage, stored := kind :: tag :: (payload ++ [check]) } = payload :=
  ⟨rfl, rfl, by simp [Slot.payload]⟩

/-- R30: the engine runs in Run and in Doze and in no other state. -/
theorem engineRuns_iff (p : PowerState) : engineRuns p = true ↔ p = .run ∨ p = .doze := by
  cases p <;> simp [engineRuns]

/-- R30: a due request is one whose slot the engine executes. -/
theorem RequestDue.slot {kind tag : Byte} {payload : List Byte} {s : State} (h : RequestDue kind tag payload s) :
    ∃ slot, executionSlot s = some slot ∧ slot.kind = kind ∧ slot.tag = tag ∧ slot.payload = payload := by
  obtain ⟨check, rest, hs⟩ := h.front
  have hf := slot_stored_fields .waitingGood kind tag check payload
  exact ⟨_, by simp [executionSlot, hs, h.idle, (engineRuns_iff _).2 h.runs], hf.1, hf.2.1, hf.2.2⟩

/-- R30, R37: what an execution step makes of the verdict on a request that is due. -/
def answeredBy (kind tag : Byte) (s : State) : Verdict → State
  | .fail code result => answeredOnly kind tag (outcomeByte code) result s
  | .done after result effect => { after with requests := replyHeld kind tag 0 result effect after.requests }

@[simp] theorem replyHeld_beginExecution (kind tag code : Byte) (result : List Byte) (effect : PostEffect) (s : State) :
    replyHeld kind tag code result effect (beginExecution s).requests = replyHeld kind tag code result effect s.requests := by
  simp [replyHeld]

/-- R30: the execution step of a due request of a Kind that the command accepts. -/
theorem execute_of_due {accepts : Byte → Bool} {kind tag : Byte} {payload : List Byte} {s : State}
    (h : RequestDue kind tag payload s) (ha : accepts kind = true) (body : List Byte → State → Verdict) :
    execute accepts body s = answeredBy kind tag s (body payload (beginExecution s)) := by
  obtain ⟨slot, hs, rfl, rfl, rfl⟩ := h.slot
  simp only [execute, hs, ha, if_true]
  cases body slot.payload (beginExecution s) with
  | fail code result =>
    simp only [endExecution, holdAnswer, answeredBy, answeredOnly, replyHeld, replyParcel, beginExecution_slots,
      setFrontStage_setFrontStage]
    rfl
  | done after result effect => rfl

/-- R30: the execution step of a due request of the catalogue. -/
theorem executeKind_of_due {kind tag : Byte} {payload : List Byte} {s : State} (h : RequestDue kind tag payload s)
    (body : List Byte → State → Verdict) : executeKind kind body s = answeredBy kind tag s (body payload (beginExecution s)) :=
  execute_of_due h (by simp) body

/-- R36, stage 2: a command that executes a body which fails with BAD_SIZE at every size that it does not take answers so. -/
theorem answersBadSize_of {c : Instr} {kind : Byte} {taken : Nat → Prop} {body : List Byte → State → Verdict}
    (hexec : ∀ s, exec c s = .next (executeKind kind body s))
    (hbody : ∀ payload s, ¬ taken payload.length → body payload s = .fail .badSize []) : answersBadSize c kind taken := by
  intro tag payload s h hn
  rw [hexec, executeKind_of_due h, hbody _ _ hn]
  rfl

/-- R30: every outcome of an execution step. -/
theorem execute_cases (accepts : Byte → Bool) (body : List Byte → State → Verdict) (s : State) :
    execute accepts body s = s ∨
      ∃ slot, executionSlot s = some slot ∧ accepts slot.kind = true ∧
        execute accepts body s = endExecution slot (beginExecution s) (body slot.payload (beginExecution s)) := by
  unfold execute
  cases h : executionSlot s with
  | none => exact .inl rfl
  | some slot =>
    by_cases ha : accepts slot.kind = true
    · exact .inr ⟨slot, rfl, ha, by simp [ha]⟩
    · exact .inl (by simp [ha])

end Sys2Proof.Machine
end

