-- ==== Sys2Proof/Laws/State.lean ====
section
/-! SUPPORT. What each named update of the State leaves in each of its fields: one lemma for each field and update, true by definition, so that no proof
unfolds a record update. -/

namespace Sys2Proof.Machine

variable (s : State)

/-! ### raise (R156) -/

@[simp] theorem raise_link (n : Notice) : (raise n s).link = s.link := rfl
@[simp] theorem raise_requests (n : Notice) : (raise n s).requests = s.requests := rfl
@[simp] theorem raise_counters (n : Notice) : (raise n s).counters = s.counters := rfl
@[simp] theorem raise_canvas (n : Notice) : (raise n s).canvas = s.canvas := rfl
@[simp] theorem raise_views (n : Notice) : (raise n s).views = s.views := rfl
@[simp] theorem raise_panel (n : Notice) : (raise n s).panel = s.panel := rfl
@[simp] theorem raise_frames (n : Notice) : (raise n s).frames = s.frames := rfl
@[simp] theorem raise_staging (n : Notice) : (raise n s).staging = s.staging := rfl
@[simp] theorem raise_chains (n : Notice) : (raise n s).chains = s.chains := rfl
@[simp] theorem raise_scanner (n : Notice) : (raise n s).scanner = s.scanner := rfl
@[simp] theorem raise_keys (n : Notice) : (raise n s).keys = s.keys := rfl
@[simp] theorem raise_notices (n : Notice) :
    (raise n s).notices = { s.notices with sticky := s.notices.sticky ||| n.word } := rfl
@[simp] theorem raise_time (n : Notice) : (raise n s).time = s.time := rfl
@[simp] theorem raise_power (n : Notice) : (raise n s).power = s.power := rfl
@[simp] theorem raise_pins (n : Notice) : (raise n s).pins = s.pins := rfl
@[simp] theorem raise_pending (n : Notice) : (raise n s).pending = s.pending := rfl

/-! ### countOverrun (R43) -/

@[simp] theorem countOverrun_link : (countOverrun s).link = s.link := rfl
@[simp] theorem countOverrun_requests : (countOverrun s).requests = s.requests := rfl
@[simp] theorem countOverrun_counters :
    (countOverrun s).counters = { s.counters with overrun := saturate s.counters.overrun } := rfl
@[simp] theorem countOverrun_canvas : (countOverrun s).canvas = s.canvas := rfl
@[simp] theorem countOverrun_views : (countOverrun s).views = s.views := rfl
@[simp] theorem countOverrun_panel : (countOverrun s).panel = s.panel := rfl
@[simp] theorem countOverrun_frames : (countOverrun s).frames = s.frames := rfl
@[simp] theorem countOverrun_staging : (countOverrun s).staging = s.staging := rfl
@[simp] theorem countOverrun_chains : (countOverrun s).chains = s.chains := rfl
@[simp] theorem countOverrun_scanner : (countOverrun s).scanner = s.scanner := rfl
@[simp] theorem countOverrun_keys : (countOverrun s).keys = s.keys := rfl
@[simp] theorem countOverrun_notices : (countOverrun s).notices = s.notices := rfl
@[simp] theorem countOverrun_time : (countOverrun s).time = s.time := rfl
@[simp] theorem countOverrun_power : (countOverrun s).power = s.power := rfl
@[simp] theorem countOverrun_pins : (countOverrun s).pins = s.pins := rfl
@[simp] theorem countOverrun_pending : (countOverrun s).pending = s.pending := rfl

/-! ### countFraming (R43) -/

@[simp] theorem countFraming_link : (countFraming s).link = s.link := rfl
@[simp] theorem countFraming_requests : (countFraming s).requests = s.requests := rfl
@[simp] theorem countFraming_counters :
    (countFraming s).counters = { s.counters with framing := saturate s.counters.framing } := rfl
@[simp] theorem countFraming_canvas : (countFraming s).canvas = s.canvas := rfl
@[simp] theorem countFraming_views : (countFraming s).views = s.views := rfl
@[simp] theorem countFraming_panel : (countFraming s).panel = s.panel := rfl
@[simp] theorem countFraming_frames : (countFraming s).frames = s.frames := rfl
@[simp] theorem countFraming_staging : (countFraming s).staging = s.staging := rfl
@[simp] theorem countFraming_chains : (countFraming s).chains = s.chains := rfl
@[simp] theorem countFraming_scanner : (countFraming s).scanner = s.scanner := rfl
@[simp] theorem countFraming_keys : (countFraming s).keys = s.keys := rfl
@[simp] theorem countFraming_notices : (countFraming s).notices = s.notices := rfl
@[simp] theorem countFraming_time : (countFraming s).time = s.time := rfl
@[simp] theorem countFraming_power : (countFraming s).power = s.power := rfl
@[simp] theorem countFraming_pins : (countFraming s).pins = s.pins := rfl
@[simp] theorem countFraming_pending : (countFraming s).pending = s.pending := rfl

/-! ### countReject (R43) -/

@[simp] theorem countReject_link : (countReject s).link = s.link := rfl
@[simp] theorem countReject_requests : (countReject s).requests = s.requests := rfl
@[simp] theorem countReject_counters :
    (countReject s).counters = { s.counters with reject := saturate s.counters.reject } := rfl
@[simp] theorem countReject_canvas : (countReject s).canvas = s.canvas := rfl
@[simp] theorem countReject_views : (countReject s).views = s.views := rfl
@[simp] theorem countReject_panel : (countReject s).panel = s.panel := rfl
@[simp] theorem countReject_frames : (countReject s).frames = s.frames := rfl
@[simp] theorem countReject_staging : (countReject s).staging = s.staging := rfl
@[simp] theorem countReject_chains : (countReject s).chains = s.chains := rfl
@[simp] theorem countReject_scanner : (countReject s).scanner = s.scanner := rfl
@[simp] theorem countReject_keys : (countReject s).keys = s.keys := rfl
@[simp] theorem countReject_notices : (countReject s).notices = s.notices := rfl
@[simp] theorem countReject_time : (countReject s).time = s.time := rfl
@[simp] theorem countReject_power : (countReject s).power = s.power := rfl
@[simp] theorem countReject_pins : (countReject s).pins = s.pins := rfl
@[simp] theorem countReject_pending : (countReject s).pending = s.pending := rfl

/-! ### countLateFrame (R90) -/

@[simp] theorem countLateFrame_link : (countLateFrame s).link = s.link := rfl
@[simp] theorem countLateFrame_requests : (countLateFrame s).requests = s.requests := rfl
@[simp] theorem countLateFrame_counters :
    (countLateFrame s).counters = { s.counters with lateFrame := saturate s.counters.lateFrame } := rfl
@[simp] theorem countLateFrame_canvas : (countLateFrame s).canvas = s.canvas := rfl
@[simp] theorem countLateFrame_views : (countLateFrame s).views = s.views := rfl
@[simp] theorem countLateFrame_panel : (countLateFrame s).panel = s.panel := rfl
@[simp] theorem countLateFrame_frames : (countLateFrame s).frames = s.frames := rfl
@[simp] theorem countLateFrame_staging : (countLateFrame s).staging = s.staging := rfl
@[simp] theorem countLateFrame_chains : (countLateFrame s).chains = s.chains := rfl
@[simp] theorem countLateFrame_scanner : (countLateFrame s).scanner = s.scanner := rfl
@[simp] theorem countLateFrame_keys : (countLateFrame s).keys = s.keys := rfl
@[simp] theorem countLateFrame_notices : (countLateFrame s).notices = s.notices := rfl
@[simp] theorem countLateFrame_time : (countLateFrame s).time = s.time := rfl
@[simp] theorem countLateFrame_power : (countLateFrame s).power = s.power := rfl
@[simp] theorem countLateFrame_pins : (countLateFrame s).pins = s.pins := rfl
@[simp] theorem countLateFrame_pending : (countLateFrame s).pending = s.pending := rfl

/-! ### holdAnswer (R30) -/

@[simp] theorem holdAnswer_link (a : Answer) : (holdAnswer a s).link = s.link := rfl
@[simp] theorem holdAnswer_requests (a : Answer) :
    (holdAnswer a s).requests = { slots := setFrontStage .replying s.requests.slots, engine := .replying a } := rfl
@[simp] theorem holdAnswer_counters (a : Answer) : (holdAnswer a s).counters = s.counters := rfl
@[simp] theorem holdAnswer_canvas (a : Answer) : (holdAnswer a s).canvas = s.canvas := rfl
@[simp] theorem holdAnswer_views (a : Answer) : (holdAnswer a s).views = s.views := rfl
@[simp] theorem holdAnswer_panel (a : Answer) : (holdAnswer a s).panel = s.panel := rfl
@[simp] theorem holdAnswer_frames (a : Answer) : (holdAnswer a s).frames = s.frames := rfl
@[simp] theorem holdAnswer_staging (a : Answer) : (holdAnswer a s).staging = s.staging := rfl
@[simp] theorem holdAnswer_chains (a : Answer) : (holdAnswer a s).chains = s.chains := rfl
@[simp] theorem holdAnswer_scanner (a : Answer) : (holdAnswer a s).scanner = s.scanner := rfl
@[simp] theorem holdAnswer_keys (a : Answer) : (holdAnswer a s).keys = s.keys := rfl
@[simp] theorem holdAnswer_notices (a : Answer) : (holdAnswer a s).notices = s.notices := rfl
@[simp] theorem holdAnswer_time (a : Answer) : (holdAnswer a s).time = s.time := rfl
@[simp] theorem holdAnswer_power (a : Answer) : (holdAnswer a s).power = s.power := rfl
@[simp] theorem holdAnswer_pins (a : Answer) : (holdAnswer a s).pins = s.pins := rfl
@[simp] theorem holdAnswer_pending (a : Answer) : (holdAnswer a s).pending = s.pending := rfl

/-! ### appendEvent (R149) -/

@[simp] theorem appendEvent_link (kind : EventKind) (key : Byte) (time : Word) :
    (appendEvent kind key time s).link = s.link := rfl
@[simp] theorem appendEvent_requests (kind : EventKind) (key : Byte) (time : Word) :
    (appendEvent kind key time s).requests = s.requests := rfl
@[simp] theorem appendEvent_counters (kind : EventKind) (key : Byte) (time : Word) :
    (appendEvent kind key time s).counters = s.counters := rfl
@[simp] theorem appendEvent_canvas (kind : EventKind) (key : Byte) (time : Word) :
    (appendEvent kind key time s).canvas = s.canvas := rfl
@[simp] theorem appendEvent_views (kind : EventKind) (key : Byte) (time : Word) :
    (appendEvent kind key time s).views = s.views := rfl
@[simp] theorem appendEvent_panel (kind : EventKind) (key : Byte) (time : Word) :
    (appendEvent kind key time s).panel = s.panel := rfl
@[simp] theorem appendEvent_frames (kind : EventKind) (key : Byte) (time : Word) :
    (appendEvent kind key time s).frames = s.frames := rfl
@[simp] theorem appendEvent_staging (kind : EventKind) (key : Byte) (time : Word) :
    (appendEvent kind key time s).staging = s.staging := rfl
@[simp] theorem appendEvent_chains (kind : EventKind) (key : Byte) (time : Word) :
    (appendEvent kind key time s).chains = s.chains := rfl
@[simp] theorem appendEvent_scanner (kind : EventKind) (key : Byte) (time : Word) :
    (appendEvent kind key time s).scanner = s.scanner := rfl
@[simp] theorem appendEvent_keys (kind : EventKind) (key : Byte) (time : Word) :
    (appendEvent kind key time s).keys = { s.keys with events := s.keys.events ++ [{ kind := kind, key := key, time := time }] } := rfl
@[simp] theorem appendEvent_notices (kind : EventKind) (key : Byte) (time : Word) :
    (appendEvent kind key time s).notices = s.notices := rfl
@[simp] theorem appendEvent_time (kind : EventKind) (key : Byte) (time : Word) :
    (appendEvent kind key time s).time = s.time := rfl
@[simp] theorem appendEvent_power (kind : EventKind) (key : Byte) (time : Word) :
    (appendEvent kind key time s).power = s.power := rfl
@[simp] theorem appendEvent_pins (kind : EventKind) (key : Byte) (time : Word) :
    (appendEvent kind key time s).pins = s.pins := rfl
@[simp] theorem appendEvent_pending (kind : EventKind) (key : Byte) (time : Word) :
    (appendEvent kind key time s).pending = s.pending := rfl

/-! ### setKeyState (section 7.5) -/

@[simp] theorem setKeyState_link (k : Fin 64) (st : KeyState) : (setKeyState k st s).link = s.link := rfl
@[simp] theorem setKeyState_requests (k : Fin 64) (st : KeyState) : (setKeyState k st s).requests = s.requests := rfl
@[simp] theorem setKeyState_counters (k : Fin 64) (st : KeyState) : (setKeyState k st s).counters = s.counters := rfl
@[simp] theorem setKeyState_canvas (k : Fin 64) (st : KeyState) : (setKeyState k st s).canvas = s.canvas := rfl
@[simp] theorem setKeyState_views (k : Fin 64) (st : KeyState) : (setKeyState k st s).views = s.views := rfl
@[simp] theorem setKeyState_panel (k : Fin 64) (st : KeyState) : (setKeyState k st s).panel = s.panel := rfl
@[simp] theorem setKeyState_frames (k : Fin 64) (st : KeyState) : (setKeyState k st s).frames = s.frames := rfl
@[simp] theorem setKeyState_staging (k : Fin 64) (st : KeyState) : (setKeyState k st s).staging = s.staging := rfl
@[simp] theorem setKeyState_chains (k : Fin 64) (st : KeyState) : (setKeyState k st s).chains = s.chains := rfl
@[simp] theorem setKeyState_scanner (k : Fin 64) (st : KeyState) :
    (setKeyState k st s).scanner = { s.scanner with states := s.scanner.states.set k st } := rfl
@[simp] theorem setKeyState_keys (k : Fin 64) (st : KeyState) : (setKeyState k st s).keys = s.keys := rfl
@[simp] theorem setKeyState_notices (k : Fin 64) (st : KeyState) : (setKeyState k st s).notices = s.notices := rfl
@[simp] theorem setKeyState_time (k : Fin 64) (st : KeyState) : (setKeyState k st s).time = s.time := rfl
@[simp] theorem setKeyState_power (k : Fin 64) (st : KeyState) : (setKeyState k st s).power = s.power := rfl
@[simp] theorem setKeyState_pins (k : Fin 64) (st : KeyState) : (setKeyState k st s).pins = s.pins := rfl
@[simp] theorem setKeyState_pending (k : Fin 64) (st : KeyState) : (setKeyState k st s).pending = s.pending := rfl

/-! ### clearOwner (R140) -/

@[simp] theorem clearOwner_link : (clearOwner s).link = s.link := rfl
@[simp] theorem clearOwner_requests : (clearOwner s).requests = s.requests := rfl
@[simp] theorem clearOwner_counters : (clearOwner s).counters = s.counters := rfl
@[simp] theorem clearOwner_canvas : (clearOwner s).canvas = s.canvas := rfl
@[simp] theorem clearOwner_views : (clearOwner s).views = s.views := rfl
@[simp] theorem clearOwner_panel : (clearOwner s).panel = s.panel := rfl
@[simp] theorem clearOwner_frames : (clearOwner s).frames = s.frames := rfl
@[simp] theorem clearOwner_staging : (clearOwner s).staging = s.staging := rfl
@[simp] theorem clearOwner_chains : (clearOwner s).chains = s.chains := rfl
@[simp] theorem clearOwner_scanner :
    (clearOwner s).scanner = { s.scanner with owner := none, repeatTimer := none } := rfl
@[simp] theorem clearOwner_keys : (clearOwner s).keys = s.keys := rfl
@[simp] theorem clearOwner_notices : (clearOwner s).notices = s.notices := rfl
@[simp] theorem clearOwner_time : (clearOwner s).time = s.time := rfl
@[simp] theorem clearOwner_power : (clearOwner s).power = s.power := rfl
@[simp] theorem clearOwner_pins : (clearOwner s).pins = s.pins := rfl
@[simp] theorem clearOwner_pending : (clearOwner s).pending = s.pending := rfl

/-! ### allKeysIdle (R130) -/

@[simp] theorem allKeysIdle_link : (allKeysIdle s).link = s.link := rfl
@[simp] theorem allKeysIdle_requests : (allKeysIdle s).requests = s.requests := rfl
@[simp] theorem allKeysIdle_counters : (allKeysIdle s).counters = s.counters := rfl
@[simp] theorem allKeysIdle_canvas : (allKeysIdle s).canvas = s.canvas := rfl
@[simp] theorem allKeysIdle_views : (allKeysIdle s).views = s.views := rfl
@[simp] theorem allKeysIdle_panel : (allKeysIdle s).panel = s.panel := rfl
@[simp] theorem allKeysIdle_frames : (allKeysIdle s).frames = s.frames := rfl
@[simp] theorem allKeysIdle_staging : (allKeysIdle s).staging = s.staging := rfl
@[simp] theorem allKeysIdle_chains : (allKeysIdle s).chains = s.chains := rfl
@[simp] theorem allKeysIdle_scanner :
    (allKeysIdle s).scanner = { s.scanner with states := Vector.replicate 64 .idle } := rfl
@[simp] theorem allKeysIdle_keys : (allKeysIdle s).keys = s.keys := rfl
@[simp] theorem allKeysIdle_notices : (allKeysIdle s).notices = s.notices := rfl
@[simp] theorem allKeysIdle_time : (allKeysIdle s).time = s.time := rfl
@[simp] theorem allKeysIdle_power : (allKeysIdle s).power = s.power := rfl
@[simp] theorem allKeysIdle_pins : (allKeysIdle s).pins = s.pins := rfl
@[simp] theorem allKeysIdle_pending : (allKeysIdle s).pending = s.pending := rfl

/-! ### endEpisodes (R130) -/

@[simp] theorem endEpisodes_link : (endEpisodes s).link = s.link := rfl
@[simp] theorem endEpisodes_requests : (endEpisodes s).requests = s.requests := rfl
@[simp] theorem endEpisodes_counters : (endEpisodes s).counters = s.counters := rfl
@[simp] theorem endEpisodes_canvas : (endEpisodes s).canvas = s.canvas := rfl
@[simp] theorem endEpisodes_views : (endEpisodes s).views = s.views := rfl
@[simp] theorem endEpisodes_panel : (endEpisodes s).panel = s.panel := rfl
@[simp] theorem endEpisodes_frames : (endEpisodes s).frames = s.frames := rfl
@[simp] theorem endEpisodes_staging : (endEpisodes s).staging = s.staging := rfl
@[simp] theorem endEpisodes_chains : (endEpisodes s).chains = s.chains := rfl
@[simp] theorem endEpisodes_scanner :
    (endEpisodes s).scanner = { s.scanner with ghost := false, rollover := false, owner := none, repeatTimer := none } := rfl
@[simp] theorem endEpisodes_keys : (endEpisodes s).keys = s.keys := rfl
@[simp] theorem endEpisodes_notices : (endEpisodes s).notices = s.notices := rfl
@[simp] theorem endEpisodes_time : (endEpisodes s).time = s.time := rfl
@[simp] theorem endEpisodes_power : (endEpisodes s).power = s.power := rfl
@[simp] theorem endEpisodes_pins : (endEpisodes s).pins = s.pins := rfl
@[simp] theorem endEpisodes_pending : (endEpisodes s).pending = s.pending := rfl

/-! ### reportWake (R179) -/

@[simp] theorem reportWake_link : (reportWake s).link = s.link := rfl
@[simp] theorem reportWake_requests : (reportWake s).requests = s.requests := rfl
@[simp] theorem reportWake_counters : (reportWake s).counters = s.counters := rfl
@[simp] theorem reportWake_canvas : (reportWake s).canvas = s.canvas := rfl
@[simp] theorem reportWake_views : (reportWake s).views = s.views := rfl
@[simp] theorem reportWake_panel : (reportWake s).panel = s.panel := rfl
@[simp] theorem reportWake_frames : (reportWake s).frames = s.frames := rfl
@[simp] theorem reportWake_staging : (reportWake s).staging = s.staging := rfl
@[simp] theorem reportWake_chains : (reportWake s).chains = s.chains := rfl
@[simp] theorem reportWake_scanner : (reportWake s).scanner = s.scanner := rfl
@[simp] theorem reportWake_keys : (reportWake s).keys = s.keys := rfl
@[simp] theorem reportWake_notices : (reportWake s).notices = s.notices := rfl
@[simp] theorem reportWake_time : (reportWake s).time = s.time := rfl
@[simp] theorem reportWake_power : (reportWake s).power = { s.power with wakeDue := true } := rfl
@[simp] theorem reportWake_pins : (reportWake s).pins = s.pins := rfl
@[simp] theorem reportWake_pending : (reportWake s).pending = s.pending := rfl

/-! ### setPower (R172) -/

@[simp] theorem setPower_link (p : PowerState) : (setPower p s).link = s.link := rfl
@[simp] theorem setPower_requests (p : PowerState) : (setPower p s).requests = s.requests := rfl
@[simp] theorem setPower_counters (p : PowerState) : (setPower p s).counters = s.counters := rfl
@[simp] theorem setPower_canvas (p : PowerState) : (setPower p s).canvas = s.canvas := rfl
@[simp] theorem setPower_views (p : PowerState) : (setPower p s).views = s.views := rfl
@[simp] theorem setPower_panel (p : PowerState) : (setPower p s).panel = s.panel := rfl
@[simp] theorem setPower_frames (p : PowerState) : (setPower p s).frames = s.frames := rfl
@[simp] theorem setPower_staging (p : PowerState) : (setPower p s).staging = s.staging := rfl
@[simp] theorem setPower_chains (p : PowerState) : (setPower p s).chains = s.chains := rfl
@[simp] theorem setPower_scanner (p : PowerState) : (setPower p s).scanner = s.scanner := rfl
@[simp] theorem setPower_keys (p : PowerState) : (setPower p s).keys = s.keys := rfl
@[simp] theorem setPower_notices (p : PowerState) : (setPower p s).notices = s.notices := rfl
@[simp] theorem setPower_time (p : PowerState) : (setPower p s).time = s.time := rfl
@[simp] theorem setPower_power (p : PowerState) : (setPower p s).power = { s.power with state := p } := rfl
@[simp] theorem setPower_pins (p : PowerState) : (setPower p s).pins = s.pins := rfl
@[simp] theorem setPower_pending (p : PowerState) : (setPower p s).pending = s.pending := rfl

/-! ### setAssembler (section 1.5) -/

@[simp] theorem setAssembler_link (a : Assembler) : (setAssembler a s).link = { s.link with assembler := a } := rfl
@[simp] theorem setAssembler_requests (a : Assembler) : (setAssembler a s).requests = s.requests := rfl
@[simp] theorem setAssembler_counters (a : Assembler) : (setAssembler a s).counters = s.counters := rfl
@[simp] theorem setAssembler_canvas (a : Assembler) : (setAssembler a s).canvas = s.canvas := rfl
@[simp] theorem setAssembler_views (a : Assembler) : (setAssembler a s).views = s.views := rfl
@[simp] theorem setAssembler_panel (a : Assembler) : (setAssembler a s).panel = s.panel := rfl
@[simp] theorem setAssembler_frames (a : Assembler) : (setAssembler a s).frames = s.frames := rfl
@[simp] theorem setAssembler_staging (a : Assembler) : (setAssembler a s).staging = s.staging := rfl
@[simp] theorem setAssembler_chains (a : Assembler) : (setAssembler a s).chains = s.chains := rfl
@[simp] theorem setAssembler_scanner (a : Assembler) : (setAssembler a s).scanner = s.scanner := rfl
@[simp] theorem setAssembler_keys (a : Assembler) : (setAssembler a s).keys = s.keys := rfl
@[simp] theorem setAssembler_notices (a : Assembler) : (setAssembler a s).notices = s.notices := rfl
@[simp] theorem setAssembler_time (a : Assembler) : (setAssembler a s).time = s.time := rfl
@[simp] theorem setAssembler_power (a : Assembler) : (setAssembler a s).power = s.power := rfl
@[simp] theorem setAssembler_pins (a : Assembler) : (setAssembler a s).pins = s.pins := rfl
@[simp] theorem setAssembler_pending (a : Assembler) : (setAssembler a s).pending = s.pending := rfl

/-! ### emptyHolding (R7) -/

@[simp] theorem emptyHolding_link : (emptyHolding s).link = { s.link with holding := none, overrunMet := false } := rfl
@[simp] theorem emptyHolding_requests : (emptyHolding s).requests = s.requests := rfl
@[simp] theorem emptyHolding_counters : (emptyHolding s).counters = s.counters := rfl
@[simp] theorem emptyHolding_canvas : (emptyHolding s).canvas = s.canvas := rfl
@[simp] theorem emptyHolding_views : (emptyHolding s).views = s.views := rfl
@[simp] theorem emptyHolding_panel : (emptyHolding s).panel = s.panel := rfl
@[simp] theorem emptyHolding_frames : (emptyHolding s).frames = s.frames := rfl
@[simp] theorem emptyHolding_staging : (emptyHolding s).staging = s.staging := rfl
@[simp] theorem emptyHolding_chains : (emptyHolding s).chains = s.chains := rfl
@[simp] theorem emptyHolding_scanner : (emptyHolding s).scanner = s.scanner := rfl
@[simp] theorem emptyHolding_keys : (emptyHolding s).keys = s.keys := rfl
@[simp] theorem emptyHolding_notices : (emptyHolding s).notices = s.notices := rfl
@[simp] theorem emptyHolding_time : (emptyHolding s).time = s.time := rfl
@[simp] theorem emptyHolding_power : (emptyHolding s).power = s.power := rfl
@[simp] theorem emptyHolding_pins : (emptyHolding s).pins = s.pins := rfl
@[simp] theorem emptyHolding_pending : (emptyHolding s).pending = s.pending := rfl

/-! ### allocateSlot (R13) -/

@[simp] theorem allocateSlot_link : (allocateSlot s).link = s.link := rfl
@[simp] theorem allocateSlot_requests :
    (allocateSlot s).requests = { s.requests with slots := s.requests.slots ++ [{ stage := .filling, stored := [] }] } := rfl
@[simp] theorem allocateSlot_counters : (allocateSlot s).counters = s.counters := rfl
@[simp] theorem allocateSlot_canvas : (allocateSlot s).canvas = s.canvas := rfl
@[simp] theorem allocateSlot_views : (allocateSlot s).views = s.views := rfl
@[simp] theorem allocateSlot_panel : (allocateSlot s).panel = s.panel := rfl
@[simp] theorem allocateSlot_frames : (allocateSlot s).frames = s.frames := rfl
@[simp] theorem allocateSlot_staging : (allocateSlot s).staging = s.staging := rfl
@[simp] theorem allocateSlot_chains : (allocateSlot s).chains = s.chains := rfl
@[simp] theorem allocateSlot_scanner : (allocateSlot s).scanner = s.scanner := rfl
@[simp] theorem allocateSlot_keys : (allocateSlot s).keys = s.keys := rfl
@[simp] theorem allocateSlot_notices : (allocateSlot s).notices = s.notices := rfl
@[simp] theorem allocateSlot_time : (allocateSlot s).time = s.time := rfl
@[simp] theorem allocateSlot_power : (allocateSlot s).power = s.power := rfl
@[simp] theorem allocateSlot_pins : (allocateSlot s).pins = s.pins := rfl
@[simp] theorem allocateSlot_pending : (allocateSlot s).pending = s.pending := rfl

/-! ### setEngine (R91) -/

@[simp] theorem setEngine_link (e : EngineState) : (setEngine e s).link = s.link := rfl
@[simp] theorem setEngine_requests (e : EngineState) : (setEngine e s).requests = { s.requests with engine := e } := rfl
@[simp] theorem setEngine_counters (e : EngineState) : (setEngine e s).counters = s.counters := rfl
@[simp] theorem setEngine_canvas (e : EngineState) : (setEngine e s).canvas = s.canvas := rfl
@[simp] theorem setEngine_views (e : EngineState) : (setEngine e s).views = s.views := rfl
@[simp] theorem setEngine_panel (e : EngineState) : (setEngine e s).panel = s.panel := rfl
@[simp] theorem setEngine_frames (e : EngineState) : (setEngine e s).frames = s.frames := rfl
@[simp] theorem setEngine_staging (e : EngineState) : (setEngine e s).staging = s.staging := rfl
@[simp] theorem setEngine_chains (e : EngineState) : (setEngine e s).chains = s.chains := rfl
@[simp] theorem setEngine_scanner (e : EngineState) : (setEngine e s).scanner = s.scanner := rfl
@[simp] theorem setEngine_keys (e : EngineState) : (setEngine e s).keys = s.keys := rfl
@[simp] theorem setEngine_notices (e : EngineState) : (setEngine e s).notices = s.notices := rfl
@[simp] theorem setEngine_time (e : EngineState) : (setEngine e s).time = s.time := rfl
@[simp] theorem setEngine_power (e : EngineState) : (setEngine e s).power = s.power := rfl
@[simp] theorem setEngine_pins (e : EngineState) : (setEngine e s).pins = s.pins := rfl
@[simp] theorem setEngine_pending (e : EngineState) : (setEngine e s).pending = s.pending := rfl

/-! ### countFrame (R87) -/

@[simp] theorem countFrame_link : (countFrame s).link = s.link := rfl
@[simp] theorem countFrame_requests : (countFrame s).requests = s.requests := rfl
@[simp] theorem countFrame_counters : (countFrame s).counters = s.counters := rfl
@[simp] theorem countFrame_canvas : (countFrame s).canvas = s.canvas := rfl
@[simp] theorem countFrame_views : (countFrame s).views = s.views := rfl
@[simp] theorem countFrame_panel : (countFrame s).panel = s.panel := rfl
@[simp] theorem countFrame_frames : (countFrame s).frames = { s.frames with counter := s.frames.counter + 1 } := rfl
@[simp] theorem countFrame_staging : (countFrame s).staging = s.staging := rfl
@[simp] theorem countFrame_chains : (countFrame s).chains = s.chains := rfl
@[simp] theorem countFrame_scanner : (countFrame s).scanner = s.scanner := rfl
@[simp] theorem countFrame_keys : (countFrame s).keys = s.keys := rfl
@[simp] theorem countFrame_notices : (countFrame s).notices = s.notices := rfl
@[simp] theorem countFrame_time : (countFrame s).time = s.time := rfl
@[simp] theorem countFrame_power : (countFrame s).power = s.power := rfl
@[simp] theorem countFrame_pins : (countFrame s).pins = s.pins := rfl
@[simp] theorem countFrame_pending : (countFrame s).pending = s.pending := rfl

/-! ### advanceTick (R164) -/

@[simp] theorem advanceTick_link : (advanceTick s).link = s.link := rfl
@[simp] theorem advanceTick_requests : (advanceTick s).requests = s.requests := rfl
@[simp] theorem advanceTick_counters : (advanceTick s).counters = s.counters := rfl
@[simp] theorem advanceTick_canvas : (advanceTick s).canvas = s.canvas := rfl
@[simp] theorem advanceTick_views : (advanceTick s).views = s.views := rfl
@[simp] theorem advanceTick_panel : (advanceTick s).panel = s.panel := rfl
@[simp] theorem advanceTick_frames : (advanceTick s).frames = s.frames := rfl
@[simp] theorem advanceTick_staging : (advanceTick s).staging = s.staging := rfl
@[simp] theorem advanceTick_chains : (advanceTick s).chains = s.chains := rfl
@[simp] theorem advanceTick_scanner : (advanceTick s).scanner = s.scanner := rfl
@[simp] theorem advanceTick_keys : (advanceTick s).keys = s.keys := rfl
@[simp] theorem advanceTick_notices : (advanceTick s).notices = s.notices := rfl
@[simp] theorem advanceTick_time : (advanceTick s).time = { s.time with ticks := s.time.ticks + 1 } := rfl
@[simp] theorem advanceTick_power : (advanceTick s).power = s.power := rfl
@[simp] theorem advanceTick_pins : (advanceTick s).pins = s.pins := rfl
@[simp] theorem advanceTick_pending : (advanceTick s).pending = s.pending := rfl

/-! ### takePass (R131) -/

@[simp] theorem takePass_link : (takePass s).link = s.link := rfl
@[simp] theorem takePass_requests : (takePass s).requests = s.requests := rfl
@[simp] theorem takePass_counters : (takePass s).counters = s.counters := rfl
@[simp] theorem takePass_canvas : (takePass s).canvas = s.canvas := rfl
@[simp] theorem takePass_views : (takePass s).views = s.views := rfl
@[simp] theorem takePass_panel : (takePass s).panel = s.panel := rfl
@[simp] theorem takePass_frames : (takePass s).frames = s.frames := rfl
@[simp] theorem takePass_staging : (takePass s).staging = s.staging := rfl
@[simp] theorem takePass_chains : (takePass s).chains = s.chains := rfl
@[simp] theorem takePass_scanner : (takePass s).scanner = { s.scanner with passesDue := s.scanner.passesDue - 1 } := rfl
@[simp] theorem takePass_keys : (takePass s).keys = s.keys := rfl
@[simp] theorem takePass_notices : (takePass s).notices = s.notices := rfl
@[simp] theorem takePass_time : (takePass s).time = s.time := rfl
@[simp] theorem takePass_power : (takePass s).power = s.power := rfl
@[simp] theorem takePass_pins : (takePass s).pins = s.pins := rfl
@[simp] theorem takePass_pending : (takePass s).pending = s.pending := rfl

/-! ### withPending (the queue of waiting commands) -/

@[simp] theorem State.withPending_link (queue : List Instr) : (s.withPending queue).link = s.link := rfl
@[simp] theorem State.withPending_requests (queue : List Instr) : (s.withPending queue).requests = s.requests := rfl
@[simp] theorem State.withPending_counters (queue : List Instr) : (s.withPending queue).counters = s.counters := rfl
@[simp] theorem State.withPending_canvas (queue : List Instr) : (s.withPending queue).canvas = s.canvas := rfl
@[simp] theorem State.withPending_views (queue : List Instr) : (s.withPending queue).views = s.views := rfl
@[simp] theorem State.withPending_panel (queue : List Instr) : (s.withPending queue).panel = s.panel := rfl
@[simp] theorem State.withPending_frames (queue : List Instr) : (s.withPending queue).frames = s.frames := rfl
@[simp] theorem State.withPending_staging (queue : List Instr) : (s.withPending queue).staging = s.staging := rfl
@[simp] theorem State.withPending_chains (queue : List Instr) : (s.withPending queue).chains = s.chains := rfl
@[simp] theorem State.withPending_scanner (queue : List Instr) : (s.withPending queue).scanner = s.scanner := rfl
@[simp] theorem State.withPending_keys (queue : List Instr) : (s.withPending queue).keys = s.keys := rfl
@[simp] theorem State.withPending_notices (queue : List Instr) : (s.withPending queue).notices = s.notices := rfl
@[simp] theorem State.withPending_time (queue : List Instr) : (s.withPending queue).time = s.time := rfl
@[simp] theorem State.withPending_power (queue : List Instr) : (s.withPending queue).power = s.power := rfl
@[simp] theorem State.withPending_pins (queue : List Instr) : (s.withPending queue).pins = s.pins := rfl
@[simp] theorem State.withPending_pending (queue : List Instr) : (s.withPending queue).pending = queue := rfl

end Sys2Proof.Machine
end

