-- ==== Sys2Proof/Tests/Slice0.lean ====
section
/-! SUPPORT. Tests of one step each on small states, with the results that the spec states, and a witness for every statement of
Sys2Proof/Certificates/Slice0/Obligations.lean that has hypotheses. -/

open Sys2Proof Sys2Proof.Machine

namespace Sys2Proof.Tests

-- Each test is one short kernel evaluation; taken one after another, they need the memory of one.
set_option Elab.async false

/-! ## Small states -/

/-- The part in a power state, otherwise as after a power-on reset. -/
def inPower (p : PowerState) : State := { State.reset with power := { State.reset.power with state := p } }

/-- The part in Run. -/
def running : State := inPower .run

/-- The part with a Good request at the front and an Idle engine. -/
def requesting (kind tag : Byte) (payload : List Byte) (s : State) : State :=
  { s with requests :=
      { slots := [{ stage := .waitingGood, stored := kind :: tag :: (payload ++ [0]) }], engine := .idle } }

/-- The state after a command. -/
def after (c : Instr) (s : State) : State :=
  match exec c s with
  | .next t => t
  | .fault _ => s
  | .refused _ => s

/-- The bytes of the answer that the engine holds. -/
def answer (s : State) : List Byte :=
  match s.requests.engine with
  | .replying a => a.bytes
  | .idle => []
  | .executing => []
  | .suspended => []

/-- The outcome code and the result bytes of the REPLY that a request command leaves: bytes 4 on, without the Check. -/
def outcome (c : Instr) (kind : Byte) (payload : List Byte) (s : State) : List Byte :=
  ((answer (after c (requesting kind 0x21 payload s))).drop 4).dropLast

/-- The state that a request command leaves, from Run. -/
def requested (c : Instr) (kind : Byte) (payload : List Byte) (s : State) : State := after c (requesting kind 0x21 payload s)

/-- The part with a byte held. -/
def holding (b : Byte) (s : State) : State := { s with link := { s.link with holding := some b } }

/-- The part with the assembler in a state. -/
def assembling (a : Assembler) (s : State) : State := { s with link := { s.link with assembler := a } }

/-- The part with a parcel of which these bytes have been stored. -/
def collecting (toCome : Nat) (sum : Byte) (damaged : Bool) (gap : Nat) (stored : List Byte) (s : State) : State :=
  { assembling (.collecting toCome sum damaged gap) s with
    requests := { s.requests with slots := [{ stage := .filling, stored := stored }] } }

/-- The part with an answer held for its one slot. -/
def replying (bytes : List Byte) (effect : PostEffect) (s : State) : State :=
  { s with requests :=
      { slots := [{ stage := .replying, stored := [0x02, 0x21, 0] }], engine := .replying { bytes := bytes, effect := effect } } }

/-- The part with one key in a state. -/
def keyIn (k : Fin 64) (st : KeyState) (s : State) : State :=
  { s with scanner := { s.scanner with states := s.scanner.states.set k st } }

/-- The part with one scan pass due. -/
def passing (s : State) : State := { s with scanner := { s.scanner with passesDue := 1 } }

/-- A set of keys. -/
def keySet (keys : List Nat) : KeySet := keys.foldl (fun acc k => acc ||| BitVec.twoPow 64 k) 0

/-- The part with these key contacts closed. -/
def touching (contacts : KeySet) (s : State) : State := { s with pins := { s.pins with contacts := contacts } }

/-- The part with a descriptor in a slot. -/
def loaded (i : Fin 32) (slot : PoolSlot) (s : State) : State := { s with chains := { s.chains with pool := s.chains.pool.set i slot } }

/-- The part with a chain of one MARK, held in slot 5 with handle 9 and due at frame 1. -/
def chained (s : State) : State :=
  let t := loaded 5 (.held 9 { action := .mark 7, next := none, release := true }) s
  { t with chains := { t.chains with queue := [{ handle := 9, head := 5, length := 1, due := 1, urgent := false }] } }

/-- View 1 of section 4.8: band (0, 16) to (255, 23), origin (0, 22), Vertical Rate 3, Up. -/
def ticker : ViewRecord :=
  { defaultViewRecord with enabled := true, originY := 22, bandTop := 16, bandBottom := 23, verticalRate := 3 }

/-- View 0 of section 4.7. -/
def corner : ViewRecord :=
  { defaultViewRecord with
    enabled := true, left := 96, width := 32, height := 16, originX := 240, bandLeft := 192, bandRight := 255, bandBottom := 15 }

/-- View 1 of section 4.7. -/
def whole : ViewRecord := { defaultViewRecord with enabled := true, inverse := true, width := 128, height := 64, originY := 32 }

/-- The panel of section 4.7, with row 5 due. -/
def showing : State :=
  { running with
    panel := { running.panel with
      snapshot := { defaultSnapshot with mode := .showing, primary := (defaultSnapshot.primary.set 0 corner).set 1 whole } }
    frames := { running.frames with row := some 5 } }

/-! ## Commands that are not well formed -/

theorem test_wellFormed_refuses_resync_with_full_reset : (Instr.resync 0x03).wellFormed = false := by decide +kernel
theorem test_wellFormed_refuses_resync_without_bit_0 : (Instr.resync 0xFC).wellFormed = false := by decide +kernel
theorem test_wellFormed_refuses_full_reset_without_bit_1 : (Instr.fullReset 0x01).wellFormed = false := by decide +kernel
theorem test_wellFormed_refuses_acknowledge_at_address_4 : (Instr.noticeAcknowledge 4 0xFF).wellFormed = false := by decide +kernel
theorem test_wellFormed_refuses_mask_at_address_3 : (Instr.noticeMask 3 0xFF).wellFormed = false := by decide +kernel
theorem test_wellFormed_refuses_ignored_write_at_address_5 : (Instr.ignoredPortWrite 5 0).wellFormed = false := by decide +kernel
theorem test_wellFormed_refuses_a_ghost_of_a_direct_input : (Instr.scanPass (BitVec.twoPow 64 60)).wellFormed = false := by decide +kernel
theorem test_wellFormed_refuses_a_ghost_in_a_repeat : (Instr.repeatEvent (BitVec.twoPow 64 63)).wellFormed = false := by decide +kernel
theorem test_wellFormed_accepts_port_writes :
    ((Instr.resync 0x01).wellFormed && (Instr.fullReset 0x03).wellFormed && (Instr.noticeAcknowledge 3 0).wellFormed &&
      (Instr.noticeMask 5 0).wellFormed && (Instr.ignoredPortWrite 7 0).wellFormed) = true := by decide +kernel

/-- No row of the table has bits. -/
theorem test_no_word_spells_a_command : decodeTableWord 16 0x1234 = none := by decide +kernel

/-- R7 and R88 order these three pairs (log entry 8). -/
theorem test_meeting_orders_of_three_steps_go_round :
    (takenBefore .byteTaken .tick && takenBefore .tick .boundary && takenBefore .boundary .byteTaken) = true := by decide +kernel

/-! ## The port (chapter 1) -/

theorem test_linkDataWrite_holds_the_byte : (after (.linkDataWrite 0x05) running).link.holding = some 0x05 := by decide +kernel
/-- Section 1.12, step 3: the byte held stays, the parcel is damaged, LINK_FAULT is set, the counter becomes 1. -/
theorem test_linkDataWrite_overruns :
    (let t := after (.linkDataWrite 0x21) (holding 0x03 (collecting 3 3 false 20 [] running))
    (t.link.holding, t.link.assembler, t.counters.overrun, t.notices.sticky)) =
      (some 0x03, .collecting 3 3 true 20, 1, 4) := by decide +kernel
theorem test_linkDataRead_underruns :
    (let t := after .linkDataRead running; (t.pins.data, t.link.underrun)) = (0, true) := by decide +kernel
/-- Section 11.7, step 5: the read of the last byte lets Sleep be entered, and key 14 receives a FORCED_RELEASE. -/
theorem test_linkDataRead_of_last_byte_enters_sleep :
    (let s := keyIn 14 .down (inPower .sleepPending)
    let t := after .linkDataRead { s with link := { s.link with ring := [0xAA] } }
    (t.pins.data, t.power.state, t.keys.events)) =
      (0xAA, .sleep, [{ kind := .forcedRelease, key := 14, time := 0 }]) := by decide +kernel
/-- R4: in Run with nothing held DRDY is 1 and POWER is 1; in Starting both are 0. -/
theorem test_linkStatusRead_in_run_and_starting :
    ((after .linkStatusRead running).pins.data, (after .linkStatusRead State.reset).pins.data) = (0x41, 0x00) := by decide +kernel
theorem test_linkStatusRead_clears_underrun :
    (let t := after .linkStatusRead (after .linkDataRead running); (t.pins.data, t.link.underrun)) = (0x51, false) := by decide +kernel
theorem test_resync_empties_the_link :
    (let s := holding 0x07 (replying [1, 2, 3] .nothing running)
    let t := after (.resync 0x01) { s with link := { s.link with ring := [9] } }
    (t.link.holding, t.link.ring, t.requests.slots, t.requests.engine)) = (none, [], [], .idle) := by decide +kernel
theorem test_fullReset_begins_starting :
    (let t := after (.fullReset 0x03) (holding 0x07 running); (t.power.state, t.power.cause, t.link.holding)) =
      (.starting, .fullReset, none) := by decide +kernel
/-- Section 9.6, step 4: 0x40 to address 2 clears CHAIN_DONE and leaves FRAME, bit 9. -/
theorem test_noticeAcknowledge_clears_chain_done :
    (after (.noticeAcknowledge 2 0x40) { running with notices := { sticky := 0x240, mask := 1 } }).notices.sticky = 0x200 := by decide +kernel
theorem test_noticeMask_replaces_three_bits :
    (after (.noticeMask 5 0xFF) running).notices.mask = 0x701 := by decide +kernel
theorem test_ignoredPortWrite_changes_nothing : after (.ignoredPortWrite 7 0xFF) running = running := by decide +kernel
/-- Section 9.6, steps 1 and 2: CHAIN_DONE alone gives Top Notice 7; a byte in the ring gives 6. -/
theorem test_top_notice :
    (let s : State := { running with notices := { sticky := 0x240, mask := 0x461 } }
    (portRead 6 s, portRead 6 { s with link := { s.link with ring := [1] } }, portRead 3 s, portRead 7 s)) =
      (7, 6, 0x02, 0x4B) := by decide +kernel
/-- Section 1.11, step 2: Collecting with five bytes to come. -/
theorem test_byteTaken_legal_length :
    (let t := after .byteTaken (holding 0x05 running); (t.link.assembler, t.requests.slots.length, t.link.holding)) =
      (.collecting 5 0x05 false 20, 1, none) := by decide +kernel
/-- Section 1.12, step 6, and section 1.12, step 9: the Check makes the sum 0xE4, and the REJECT is built with its Check 0x9D. -/
theorem test_byteTaken_completes_a_rejected_parcel :
    (let t := after .byteTaken (holding 0x05 (collecting 1 0xDF true 20 [0x03, 0xD9] running))
    (answer t, t.counters.reject)) = ([0x05, 0x81, 0xD9, 0x03, 0x01, 0x9D], 1) := by decide +kernel
theorem test_gapTimeout_abandons_the_parcel :
    (let t := after .gapTimeout (collecting 3 0 false 1 [] running)
    (t.link.assembler, t.requests.slots, t.counters.framing, t.time.ticks)) = (.awaitLength false, [], 1, 1) := by decide +kernel
/-- R18: the overrun that met the held byte becomes the pre-mark. -/
theorem test_huntingEnd_sets_the_pre_mark :
    (let s := holding 0x03 (assembling (.hunting 1) running)
    let t := after .huntingEnd { s with link := { s.link with overrunMet := true } }
    (t.link.assembler, t.notices.sticky)) = (.awaitLength true, 0) := by decide +kernel
theorem test_posting_waits_for_room :
    (let s := replying [1, 2, 3, 4, 5, 6] .nothing running
    let full := fun n => after .posting { s with link := { s.link with ring := List.replicate n 0 } }
    ((full 186).link.ring.length, (full 187).link.ring.length)) = (192, 187) := by decide +kernel
/-- R183: the warm reset of RESTART gives the reset cause 4; R124: a Held slot returns to Loaded. -/
theorem test_posting_of_restart :
    (let t := after .posting (replying [1] .warmReset (chained running))
    (t.power.cause, t.chains.queue, t.chains.pool[5])) =
      (.restart, [], .loaded { action := .mark 7, next := none, release := true }) := by decide +kernel

/-! ## The general requests (chapter 2) and the power requests (chapter 11) -/

/-- Section 2.3, example 1: code 0x14 is not in the catalogue. -/
theorem test_unknown_kind : outcome .unknownKindRequest 0x14 [] running = [1] := by decide +kernel
theorem test_identify :
    outcome .identify 0x01 [] running =
      [0, 0x0A, 0x19, 1, 0, 1, 128, 3, 4, 2, 160, 64, 0, 4, 32, 4, 4, 4, 192, 63, 64, 8, 24, 11] := by decide +kernel
/-- Section 1.11, step 4. -/
theorem test_echo_of_section_1_11 :
    answer (after .echo (requesting 0x02 0x17 [0xAA, 0x55] running)) =
      [0x07, 0x80, 0x17, 0x02, 0x00, 0xAA, 0x55, 0x61] := by decide +kernel
theorem test_echo_of_59_bytes : outcome .echo 0x02 (List.replicate 59 0) running = [2] := by decide +kernel
/-- Section 2.6, step 4: reject counter 1, late-frame counter 1, queue fill 1. -/
theorem test_getStatus :
    outcome .getStatus 0x03 [] { running with counters := { running.counters with reject := 1, lateFrame := 1 } } =
      [0, 1, 0, 0, 0, 1, 1, 0, 0, 0, 0, 1, 1, 0] := by decide +kernel
theorem test_getStatus_with_a_payload : outcome .getStatus 0x03 [0] running = [2] := by decide +kernel
theorem test_clearCounters :
    (let s : State := { running with counters := { overrun := 1, framing := 2, reject := 3, lateFrame := 4, lostKey := 5 } }
    (outcome .clearCounters 0x04 [] s, (requested .clearCounters 0x04 [] s).counters.lostKey)) = ([0, 1, 2, 3, 4, 5], 0) := by decide +kernel
theorem test_restart : outcome .restart 0x05 [] running = [0] := by decide +kernel
theorem test_enterDoze_is_busy_with_a_chain : outcome .enterDoze 0x3B [] (chained running) = [4] := by decide +kernel
theorem test_enterDoze_posting_enters_doze : (after .posting (replying [1] .enterDoze running)).power.state = .doze := by decide +kernel
theorem test_enterSleep_in_doze : outcome .enterSleep 0x3C [] (inPower .doze) = [6] := by decide +kernel
theorem test_enterSleep_posting_waits :
    (let t := after .posting (replying [1] .enterSleep running); (t.power.state, t.requests.engine)) =
      (.sleepPending, .suspended) := by decide +kernel
theorem test_wake_in_doze :
    (let t := requested .wake 0x3D [] (inPower .doze)
    (t.power.state, t.notices.sticky, t.scanner.passTimer, t.frames.resuming)) = (.run, 8, 8, true) := by decide +kernel

/-! ## The panel requests (chapter 5) -/

/-- R80: 100 columns are in range but not a multiple of 8. -/
theorem test_configurePanel :
    (outcome .configurePanel 0x10 [104, 32, 60] running, outcome .configurePanel 0x10 [100, 32, 60] running,
      outcome .configurePanel 0x10 [104, 32, 60] showing) = ([0], [3], [6]) := by decide +kernel
theorem test_setDisplayMode : (requested .setDisplayMode 0x11 [2] running).panel.mode = .showing := by decide +kernel
theorem test_setContrast :
    (outcome .setContrast 0x12 [32] running, (requested .setContrast 0x12 [31] running).panel.contrast) = ([3], 31) := by decide +kernel
theorem test_setBlink :
    (outcome .setBlink 0x13 [1] running, (requested .setBlink 0x13 [3] running).frames.blinkPeriod) = ([3], 3) := by decide +kernel

/-! ## The canvas requests (chapter 3) -/

/-- Section 3.8, step 1. -/
def written : State := requested .writeCanvas 0x18 [30, 5, 1, 0x02, 0xF0, 0x0F, 0xFF, 0x81] running

theorem test_writeCanvas_of_section_3_8 : written.canvas.pixels = [(190, 0xF0), (191, 0x0F), (192, 0xFF), (193, 0x81)] := by decide +kernel
/-- Section 3.8, step 3. -/
theorem test_writeCanvas_past_the_end : outcome .writeCanvas 0x18 [28, 127, 0, 0, 1, 2, 3, 4, 5] running = [3] := by decide +kernel
/-- Section 3.8, step 2. -/
theorem test_readAttributes_of_section_3_8 :
    outcome .readAttributes 0x1B [29, 5, 6] written = [0, 0x00, 0x02, 0x02, 0x02, 0x02, 0x00] := by decide +kernel
theorem test_readCanvas : outcome .readCanvas 0x19 [31, 5, 2] written = [0, 0x0F, 0xFF] := by decide +kernel
theorem test_readCanvas_of_no_cell : outcome .readCanvas 0x19 [31, 5, 0] written = [3] := by decide +kernel
/-- R46: the bits 3 to 7 are ignored. -/
theorem test_writeAttributes : (requested .writeAttributes 0x1A [31, 127, 0xFD] running).canvas.attributes = [(4095, 0x05)] := by decide +kernel
theorem test_clearCanvas_refuses_0xFF : outcome .clearCanvas 0x1E [0xFF, 0] running = [3] := by decide +kernel
theorem test_clearCanvas_clears : (requested .clearCanvas 0x1E [0, 0] written).canvas.pixels = [] := by decide +kernel

/-- Section 3.9, step 1. -/
def cursorAtOne : State := requested .setCursor 0x1C [0x01, 0x00, 1] running

theorem test_setCursor_of_section_3_9 : (cursorAtOne.canvas.cursor, cursorAtOne.canvas.step) = (1, .backward) := by decide +kernel
theorem test_setCursor_past_the_end : outcome .setCursor 0x1C [0x00, 0x10, 0] running = [3] := by decide +kernel
/-- Section 3.9, step 2. -/
theorem test_writeAtCursor_of_section_3_9 :
    (outcome .writeAtCursor 0x1D [0, 0, 0xAA, 0xBB, 0xCC] cursorAtOne,
      (requested .writeAtCursor 0x1D [0, 0, 0xAA, 0xBB, 0xCC] cursorAtOne).canvas.pixels) =
      ([0, 0xFE, 0x0F], [(0, 0xBB), (1, 0xAA), (4095, 0xCC)]) := by decide +kernel

/-! ## Views and composition (chapter 4) -/

theorem test_setView_drops_ignored_flags :
    (outcome .getView 0x21 [1, 2]
      (requested .setView 0x20 [1, 2, 0xFF, 1, 2, 8, 1, 5, 6, 5, 6, 5, 6, 9, 1, 7, 0] running)) =
      [0, 0x03, 1, 2, 8, 1, 5, 6, 5, 6, 5, 6, 9, 1, 7, 0, 0, 0] := by decide +kernel
theorem test_setView_refuses_an_origin_outside_the_band :
    outcome .setView 0x20 [1, 2, 0, 1, 2, 8, 1, 5, 7, 5, 6, 5, 6, 9, 1, 7, 0] running = [3] := by decide +kernel
theorem test_getView_default :
    outcome .getView 0x21 [0, 3] running = [0, 0, 0, 0, 8, 8, 0, 0, 0, 0, 255, 127, 0, 0, 0, 0, 0, 0] := by decide +kernel
theorem test_setBackdrop : (requested .setBackdrop 0x22 [1] running).views.backdrop = true := by decide +kernel
theorem test_selectViews : (requested .selectViews 0x23 [1] running).views.source = .fallback := by decide +kernel
/-- Section 4.7, steps 1 to 3: the covering view and the canvas position of (10, 5), (96, 5) and (112, 5). -/
theorem test_section_4_7_positions :
    (coveringView showing.panel.snapshot 10 5, canvasColumn whole 10, canvasRow whole 5, coveringView showing.panel.snapshot 96 5,
      canvasColumn corner 96, canvasRow corner 5, canvasColumn corner 112) =
      (some whole, 10, 37, some corner, 240, 5, 192) := by decide +kernel
/-- Section 4.7, step 1: the pixel (10, 37), bit 5 of cell column 1, is on and shown off; the pixel beside it is shown on. R84: columns
beyond the configured 128 are unselected. -/
theorem test_rowScanOut_of_section_4_7 :
    (let s := { showing with canvas := { showing.canvas with pixels := [(37 * 32 + 1, 0x20)] } }
    match (after .rowScanOut s).panel.drive with
    | .row r contrast levels => (r, contrast, levels[10]?, levels[11]?, levels[128]?)
    | _ => (0, 0, none, none, none)) = (5, 16, some .off, some .on, some .unselected) := by decide +kernel
/-- Section 4.8, step 3: at the third boundary Origin Y becomes 23. -/
theorem test_frameBoundary_scrolls_the_ticker :
    (let view : View := { record := ticker, verticalCount := 2, horizontalCount := 0 }
    let t := after (.frameBoundary false) { running with views := running.views.setView .primary 1 view }
    (t.panel.snapshot.primary[1].originY, t.views.primary[1].verticalCount)) = (23, 0) := by decide +kernel
/-- Section 4.8, step 7: Down from Band Top wraps to Band Bottom. -/
theorem test_scroll_down_wraps : movedY { ticker with originY := 16, verticalDirection := .down } = 23 := by decide +kernel

/-! ## Frames (chapter 5) -/

/-- Section 5.10, frame 103: the counter reaches the period 3, becomes 0 and the phase Hidden. R90: the boundary that waited is late. -/
theorem test_frameBoundary_toggles_the_phase :
    (let t := after (.frameBoundary true)
      { running with frames := { running.frames with blinkPeriod := 3, blinkCount := 2, counter := 102 } }
    (t.frames.counter, t.frames.blinkCount, t.panel.snapshot.phase, t.counters.lateFrame, t.notices.sticky)) =
      (103, 0, .hidden, 1, 0x200) := by decide +kernel
/-- R88: no row is skipped, so row 63 of a frame of Show is scanned before the boundary that ends it. -/
theorem test_rowScanOut_of_the_last_row_lets_the_frame_end :
    (let s : State := { showing with frames := { showing.frames with row := some 63 } }
    ((after (.frameBoundary false) s).frames.counter, (after (.frameBoundary false) (after .rowScanOut s)).frames.counter)) = (0, 1) := by
  decide +kernel
theorem test_resumingBoundary_opens_frame_1 :
    (let t := after .resumingBoundary (after .endOfStarting State.reset)
    (t.frames.counter, t.frames.row, t.frames.resuming, t.panel.drive)) = (1, some 0, false, .grounded) := by decide +kernel
/-- Section 5.10, frames 101, 102 and 104: a lit cell with Blink and Dim. -/
theorem test_shownValue_of_section_5_10 :
    (shownValue true 5 false .shown true, shownValue true 5 false .shown false, shownValue true 5 false .hidden false) =
      (false, true, false) := by decide +kernel

/-! ## Staging, descriptors and chains (chapter 6) -/

theorem test_stage : (requested .stage 0x28 [0xFF, 0x03, 0xAB] running).staging = [(1023, 0xAB)] := by decide +kernel
/-- Section 6.8, step 6: offsets 60 to 63 are locked by the Held COPY of 64 bytes. -/
theorem test_stage_is_locked :
    outcome .stage 0x28 [60, 0, 1, 2, 3, 4, 5, 6, 7, 8]
      (loaded 0 (.held 5 { action := .copy 0 { column := 4, row := 40, width := 8, height := 8 } .apply 0, next := some 2,
                           release := true }) running) = [5] := by decide +kernel
/-- Section 6.8, step 2, read back. -/
theorem test_loadDescriptor_reads_back :
    outcome .readDescriptor 0x2E [0]
      (requested .loadDescriptor 0x29 [0, 1, 2, 0xFF, 0, 0, 4, 40, 8, 8, 1, 0xF8] running) =
      [0, 1, 0, 1, 2, 1, 0, 0, 4, 40, 8, 8, 1, 0] := by decide +kernel
theorem test_loadDescriptor_is_busy :
    outcome .loadDescriptor 0x29 [5, 6, 0xFF, 0, 1, 0, 0, 0, 0, 0, 0, 0] (chained running) = [4] := by decide +kernel
theorem test_freeDescriptor :
    (outcome .freeDescriptor 0x2A [5] (chained running), outcome .freeDescriptor 0x2A [6] (chained running),
      outcome .freeDescriptor 0x2A [32] running) = ([4], [0], [3]) := by decide +kernel
theorem test_readDescriptor_of_a_held_slot :
    outcome .readDescriptor 0x2E [5] (chained running) = [0, 2, 9, 6, 0xFF, 1, 7, 0, 0, 0, 0, 0, 0, 0] := by decide +kernel
/-- R115: the first handle is 1; R112: due kind 1 with k = 3 from frame 0. -/
theorem test_submitChain_holds_the_slot :
    (let s := loaded 4 (.loaded { action := .mark 1, next := none, release := false }) running
    (outcome .submitChain 0x2B [4, 1, 3, 0, 0] s, (requested .submitChain 0x2B [4, 1, 3, 0, 0] s).chains.pool[4])) =
      ([0, 1, 1, 3, 0], .held 1 { action := .mark 1, next := none, release := false }) := by decide +kernel
/-- R113: a slot whose Next names itself is revisited at position 1. -/
theorem test_submitChain_revisits :
    outcome .submitChain 0x2B [4, 0, 0, 0, 0] (loaded 4 (.loaded { action := .mark 1, next := some 4, release := false }) running) =
      [8, 1, 2, 4] := by decide +kernel
theorem test_cancelChain :
    (outcome .cancelChain 0x2C [9] (chained running), outcome .cancelChain 0x2C [8] (chained running),
      (requested .cancelChain 0x2C [9] (chained running)).chains.outcomes) =
      ([0, 1], [9], [{ handle := 9, result := .cancelled, skipped := 0 }]) := by decide +kernel
theorem test_chainStatus :
    outcome .chainStatus 0x2D [] (chained running) =
      [0, 1, 9, 5, 1, 1, 0, 0] ++ List.replicate 18 0 ++ [0] ++ List.replicate 12 0 ++ [0, 31, 0, 1, 0, 0] := by decide +kernel
/-- R111, R119: the MARK is applied at the boundary of frame 1, its slot is released, CHAIN_DONE, CHAIN_MARK and FRAME are set. -/
theorem test_frameBoundary_applies_the_chain :
    (let t := after (.frameBoundary false) (chained running)
    (t.chains.lastMark, t.chains.pool[5], t.chains.outcomes, t.notices.sticky)) =
      (7, .free, [{ handle := 9, result := .completed, skipped := 0 }], 0x2C0) := by decide +kernel
/-- R108: the set mask 0x02 with the clear mask 0x03 sets Inverse and clears Blink. -/
theorem test_changeAttributes : changeAttributes 2 3 5 = 6 := by decide +kernel

/-! ## Keys (chapters 7 and 8) -/

theorem test_configureScan_releases :
    (let t := requested .configureScan 0x30 [10, 6, 8, 3, 50, 10] (keyIn 14 .down running)
    (t.keys.events, t.scanner.states[14], t.scanner.passTimer)) =
      ([{ kind := .forcedRelease, key := 14, time := 0 }], .idle, 8) := by decide +kernel
theorem test_configureScan_refuses_a_period_of_1 : outcome .configureScan 0x30 [10, 6, 1, 3, 50, 10] running = [3] := by decide +kernel
theorem test_setKey_disables_a_reported_key :
    (let t := requested .setKey 0x31 [14, 0] (keyIn 14 (.settlingUp 1) running)
    (t.keys.events, t.scanner.states[14], t.scanner.table[14])) =
      ([{ kind := .forcedRelease, key := 14, time := 0 }], .idle, { enabled := false, repeats := false, wakes := false }) := by
  decide +kernel
theorem test_takeKeys :
    outcome .takeKeys 0x32 [1]
      { running with keys := { running.keys with events :=
          [{ kind := .press, key := 6, time := 0x1234 }, { kind := .ghost, key := 12, time := 0 }] } } =
      [0, 1, 1, 1, 6, 0x34, 0x12] := by decide +kernel
/-- Section 8.8, step 2. -/
theorem test_flushKeys_of_section_8_8 :
    (let s := { running with keys := { running.keys with events := List.replicate 3 { kind := .press, key := 60, time := 0 } } }
    (outcome .flushKeys 0x33 [] s, (requested .flushKeys 0x33 [] s).keys.events)) = ([0, 3, 0], []) := by decide +kernel
/-- Section 7.11, the state between P10 and P12. -/
theorem test_getKeyStates_of_section_7_11 :
    (let s := keyIn 6 .down (keyIn 7 .down running)
    outcome .getKeyStates 0x34 []
      { s with scanner := { s.scanner with raw := keySet [6, 7, 12, 13], owner := some 7, ghost := true } }) =
      [0, 0xC0, 0, 0, 0, 0, 0, 0, 0, 0xC0, 0x30, 0, 0, 0, 0, 0, 0, 2, 7, 1] := by decide +kernel
/-- Section 7.11, P3: key 6 is Down and the owner, with the repeat timer at 500. -/
theorem test_scanPass_admits_key_6 :
    (let t := after (.scanPass 0) (touching (keySet [6]) (passing (keyIn 6 (.settlingDown 2) running)))
    (t.keys.events, t.scanner.states[6], t.scanner.owner, t.scanner.repeatTimer)) =
      ([{ kind := .press, key := 6, time := 0 }], .down, some 6, some 500) := by decide +kernel
/-- Section 7.11, P10: keys 12 and 13 are Suppressed, and one GHOST carries key 12. -/
theorem test_scanPass_suppresses_the_ghosts :
    (let s := keyIn 6 .down (keyIn 7 .down (keyIn 12 (.settlingDown 2) (keyIn 13 (.settlingDown 2) running)))
    let t := after (.scanPass 0) (touching (keySet [6, 7, 12]) (passing s))
    (t.keys.events, t.scanner.states[6], t.scanner.states[12], t.scanner.states[13], t.scanner.ghost)) =
      ([{ kind := .ghost, key := 12, time := 0 }], .down, .suppressed 0, .suppressed 0, true) := by decide +kernel
/-- R136: the keys 6, 7 and 12 make 13 read closed; the keys 6 and 7 alone make nothing else read closed, whatever the command names. -/
theorem test_scanPass_reads_a_ghost_of_three_closures_only :
    ((after (.scanPass 0) (touching (keySet [6, 7, 12]) (passing running))).scanner.raw,
      (after (.scanPass (keySet [13])) (touching (keySet [6, 7]) (passing running))).scanner.raw) =
      (keySet [6, 7, 12, 13], keySet [6, 7]) := by decide +kernel
/-- R136: five closures in a row lead round key 2, which the command may name, and by threes round the keys 1, 8 and 12. -/
theorem test_scanPass_reads_a_named_ghost_of_a_longer_path :
    (after (.scanPass (keySet [2, 30])) (touching (keySet [0, 6, 7, 13, 14]) (passing running))).scanner.raw =
      keySet [0, 1, 2, 6, 7, 8, 12, 13, 14] := by decide +kernel

/-- Section 7.7: key 14 is Down and the owner, with its repeat timer at 4. -/
def repeating : State :=
  let s := touching (BitVec.twoPow 64 14) (passing (keyIn 14 .down running))
  { s with scanner := { s.scanner with owner := some 14, repeatTimer := some 4 } }

/-- The example of section 7.7, step 3: the pass takes the timer below 0, and it is reloaded with 100. -/
theorem test_repeat_of_section_7_7 :
    (let t := after (.repeatEvent 0) repeating; (t.keys.events, t.scanner.repeatTimer)) =
      ([{ kind := .repeated, key := 14, time := 0 }], some 100) := by decide +kernel
/-- Section 8.7, step 7: with six dropped events and room, a LOST record of 6 goes ahead of the REPEAT. -/
theorem test_lost_marker_of_section_8_7 :
    (offer .repeated 20 500 { running with keys := { events := [], dropped := 6 } }).keys =
      { events := [{ kind := .lost, key := 6, time := 500 }, { kind := .repeated, key := 20, time := 500 }], dropped := 0 } := by
  decide +kernel
/-- Section 8.7, step 4: F = 3 and O = 3 refuse a PRESS; the dropped count goes from 5 to 6 and KEY_LOSS is set. -/
theorem test_refused_press_of_section_8_7 :
    (let s := keyIn 6 .down (keyIn 7 .down (keyIn 20 .down running))
    let t := offer .press 30 500
      { s with keys := { events := List.replicate 21 { kind := .repeated, key := 20, time := 0 }, dropped := 5 } }
    (t.keys.events.length, t.keys.dropped, t.counters.lostKey, t.notices.sticky)) = (21, 6, 1, 0x400) := by decide +kernel

/-- The part in a low-power state with key 14 enabled to wake and its line, sense line 2, armed. -/
def watching (p : PowerState) : State :=
  let s := inPower p
  { s with scanner := { s.scanner with
      table := s.scanner.table.set 14 { enabled := true, repeats := true, wakes := true }, armed := 0x3FF } }

theorem test_watchedLineChange_reports_a_wake_on_a_wake_line :
    (let t := after (.watchedLineChange 14 true) (watching .sleep)
    let u := after (.watchedLineChange 15 true) (watching .sleep)
    (t.power.wakeDue, t.scanner.armed, u.power.wakeDue, u.scanner.armed)) = (true, 0x3FB, false, 0x3F7) := by decide +kernel
/-- R142: keys 6, 7, 12 are closed and the last pass read 13 closed too: when key 7 opens in Doze, KS1 reads open and is armed. -/
theorem test_watchedLineChange_takes_no_ghost_for_a_key :
    (let s := after (.scanPass 0) (touching (keySet [6, 7, 12]) (passing running))
    let t := after .posting { s with requests := (replying [1] .enterDoze running).requests }
    (t.power.state, t.scanner.armed, (after (.watchedLineChange 7 false) t).scanner.armed)) = (.doze, 0x3FC, 0x3FE) := by decide +kernel

/-! ## Timebase, power states and resets (chapters 10 and 11) -/

theorem test_readTime :
    outcome .readTime 0x38 []
      { running with time := { running.time with
          ticks := 0x1234, alarmMode := .periodic, alarmCount := 300, watchPeriod := 5, watchAction := .fallbackAndShow,
          watchCount := 500 } } = [0, 0x34, 0x12, 0, 0, 2, 44, 1, 5, 2, 0, 244, 1] := by decide +kernel
theorem test_setAlarm :
    (outcome .setAlarm 0x39 [1, 0, 0, 0] running, (requested .setAlarm 0x39 [1, 44, 1, 1] running).time.alarmCount) =
      ([3], 300) := by decide +kernel
/-- Section 10.5: period 5 loads 500. -/
theorem test_setLinkWatch :
    (outcome .setLinkWatch 0x3A [65, 0] running, (requested .setLinkWatch 0x3A [5, 2] running).time.watchCount) = ([3], 500) := by decide +kernel
theorem test_tick_makes_a_pass_due :
    (let t := after .tick { running with scanner := { running.scanner with passTimer := 1 } }
    (t.time.ticks, t.scanner.passTimer, t.scanner.passesDue)) = (1, 8, 1) := by decide +kernel
/-- R164: the gap timer, the alarm and the watch end at one tick, in that order: three notices and WAKE, the part in Run, the link Lost. -/
theorem test_tick_at_which_three_timers_end :
    (let s : State := { collecting 3 0 false 1 [] (inPower .doze) with time := { running.time with
      alarmMode := .periodic, alarmPeriod := 9, alarmCount := 1, alarmWake := true, watchPeriod := 64, watchCount := 1 } }
    let t := after .linkWatchExpiry s
    (t.notices.sticky, t.power.state, t.time.link, t.time.alarmCount, t.requests.slots)) = (0x10E, .run, .lost, 9, []) := by decide +kernel
theorem test_tick_in_sleep_changes_nothing : after .tick (inPower .sleep) = inPower .sleep := by decide +kernel
theorem test_alarmExpiry_wakes_from_doze :
    (let s := inPower .doze
    let t := after .alarmExpiry
      { s with time := { s.time with alarmMode := .oneShot, alarmPeriod := 9, alarmCount := 1, alarmWake := true } }
    (t.power.state, t.notices.sticky, t.time.alarmMode, t.time.alarmPeriod)) = (.run, 0x108, .off, 0) := by decide +kernel
/-- Section 10.5, step 2. -/
theorem test_linkWatchExpiry_of_section_10_5 :
    (let t := after .linkWatchExpiry
      { running with time := { running.time with watchPeriod := 5, watchAction := .fallbackAndShow, watchCount := 1 } }
    (t.time.link, t.notices.sticky, t.views.source, t.panel.mode)) = (.lost, 2, .fallback, .showing) := by decide +kernel
theorem test_sleepEntry : (after .sleepEntry (inPower .sleepPending)).power.state = .sleep := by decide +kernel
/-- Section 11.7, step 7. -/
theorem test_wakeStep_of_section_11_7 :
    (let s := holding 0x05 (inPower .sleep)
    let t := after .wakeStep
      { s with requests := { s.requests with engine := .suspended }, power := { s.power with wakeDue := true } }
    (t.power.state, t.notices.sticky, t.requests.engine, t.link.holding)) = (.run, 8, .idle, some 0x05) := by decide +kernel
theorem test_endOfStarting :
    (let t := after .endOfStarting State.reset; (t.power.state, t.notices.sticky, attn t, t.scanner.passTimer)) =
      (.run, 1, true, 8) := by decide +kernel
theorem test_powerOnReset : after .powerOnReset running = State.reset := by decide +kernel
/-- R174: a FULL RESET while RST is low only sets the cause, which the release does not overwrite; Starting cannot end while RST is low. -/
theorem test_rstPinReset_holds_starting :
    (let t := after .endOfStarting (after (.fullReset 0x02) (after (.rstPinReset true) running))
    (t.power.state, t.power.cause, (after (.rstPinReset false) t).power.cause)) =
      (.starting, .fullReset, .fullReset) := by decide +kernel

/-! ## Witnesses: concrete states and operands that meet the hypotheses of the statements

Each theorem bears the name of its statement. Where the statement has several clauses, the operands stand at the ends of their ranges. -/

/-- A request at the front of a part in Run or Doze is due. -/
theorem requesting_isDue (kind tag : Byte) (payload : List Byte) (s : State)
    (h : s.power.state = .run ∨ s.power.state = .doze) : RequestDue kind tag payload (requesting kind tag payload s) :=
  ⟨rfl, h, 0, [], rfl⟩

/-- The same for the part in Run. -/
theorem running_isDue (kind : Byte) (payload : List Byte) : RequestDue kind 0x21 payload (requesting kind 0x21 payload running) :=
  requesting_isDue _ _ _ _ (.inl rfl)

/-- The same for the part in Doze. -/
theorem dozing_isDue (kind : Byte) (payload : List Byte) :
    RequestDue kind 0x21 payload (requesting kind 0x21 payload (inPower .doze)) :=
  requesting_isDue _ _ _ _ (.inr rfl)

/-- For the clauses `answersBadSize` of the request statements: every Kind and payload can be due, and each range of sizes has sizes next to it. -/
theorem witness_answersBadSize :
    (∀ (kind : Byte) (payload : List Byte), RequestDue kind 0x21 payload (requesting kind 0x21 payload running)) ∧
    (∀ n, n = 4 ∨ n = 61 → ¬ (5 ≤ n ∧ n ≤ 60)) ∧ (∀ n, n = 2 ∨ n = 61 → ¬ (3 ≤ n ∧ n ≤ 60)) ∧ (∀ n, n = 2 ∨ n = 60 → ¬ (3 ≤ n ∧ n ≤ 59)) ∧
    ∀ n m : Nat, m = n + 1 → m ≠ n :=
  ⟨fun kind payload => running_isDue kind payload, by omega, by omega, by omega, by omega⟩

theorem witness_GeneralRequestsAnswer :
    RequestDue 0x01 0x21 [] (requesting 0x01 0x21 [] running) ∧ RequestDue 0x01 0x21 [0] (requesting 0x01 0x21 [0] running) ∧
    RequestDue 0x02 0x21 (List.replicate 58 1) (requesting 0x02 0x21 (List.replicate 58 1) running) ∧
    RequestDue 0x02 0x21 (List.replicate 59 1) (requesting 0x02 0x21 (List.replicate 59 1) running) ∧
    RequestDue 0x03 0x21 [] (requesting 0x03 0x21 [] (inPower .doze)) ∧
    RequestDue 0x04 0x21 [] (requesting 0x04 0x21 [] running) :=
  ⟨running_isDue .., running_isDue .., running_isDue .., running_isDue .., dozing_isDue .., running_isDue ..⟩

theorem witness_PowerRequestsAnswer :
    RequestDue 0x05 0x21 [] (requesting 0x05 0x21 [] running) ∧ RequestDue 0x3B 0x21 [] (requesting 0x3B 0x21 [] (inPower .doze)) ∧
    RequestDue 0x3B 0x21 [] (requesting 0x3B 0x21 [] (chained running)) ∧
    RequestDue 0x3C 0x21 [] (requesting 0x3C 0x21 [] running) ∧ RequestDue 0x3D 0x21 [] (requesting 0x3D 0x21 [] (inPower .doze)) ∧
    RequestDue 0x3D 0x21 [1] (requesting 0x3D 0x21 [1] running) :=
  ⟨running_isDue .., dozing_isDue .., requesting_isDue _ _ _ _ (.inl rfl), running_isDue .., dozing_isDue .., running_isDue ..⟩

theorem witness_PanelRequestsAnswer :
    RequestDue 0x10 0x21 [160, 64, 125] (requesting 0x10 0x21 [160, 64, 125] running) ∧
    RequestDue 0x10 0x21 [32, 16, 39] (requesting 0x10 0x21 [32, 16, 39] running) ∧
    RequestDue 0x11 0x21 [3] (requesting 0x11 0x21 [3] running) ∧ RequestDue 0x11 0x21 [4] (requesting 0x11 0x21 [4] running) ∧
    RequestDue 0x12 0x21 [31] (requesting 0x12 0x21 [31] running) ∧ RequestDue 0x13 0x21 [2] (requesting 0x13 0x21 [2] running) :=
  ⟨running_isDue .., running_isDue .., running_isDue .., running_isDue .., running_isDue .., running_isDue ..⟩

theorem witness_CanvasRunsAreWritten :
    (RequestDue 0x18 0x21 [31, 127, 1, 7, 0xFF] (requesting 0x18 0x21 [31, 127, 1, 7, 0xFF] running) ∧
      (1 ≤ [0xFF].length ∧ [0xFF].length ≤ 56) ∧ 127 * 32 + 31 + [0xFF].length ≤ 4096) ∧
    (RequestDue 0x18 0x21 [31, 127, 1, 7, 1, 2] (requesting 0x18 0x21 [31, 127, 1, 7, 1, 2] written) ∧
      4096 < 127 * 32 + 31 + [1, 2].length) ∧
    (RequestDue 0x1A 0x21 [31, 127, 7] (requesting 0x1A 0x21 [31, 127, 7] running) ∧
      RequestDue 0x1A 0x21 [32, 0, 7] (requesting 0x1A 0x21 [32, 0, 7] running)) ∧
    (running.canvas.pixels.wf = true ∧ running.canvas.attributes.wf = true) ∧
    written.canvas.pixels.wf = true ∧ written.canvas.attributes.wf = true :=
  ⟨⟨running_isDue .., by decide, by decide⟩, ⟨requesting_isDue _ _ _ _ (.inl rfl), by decide⟩,
    ⟨running_isDue .., running_isDue ..⟩, ⟨rfl, rfl⟩, by decide +kernel, by decide +kernel⟩

theorem witness_CanvasRunsAreRead :
    RequestDue 0x19 0x21 [0, 0, 56] (requesting 0x19 0x21 [0, 0, 56] running) ∧
    RequestDue 0x19 0x21 [0, 0, 57] (requesting 0x19 0x21 [0, 0, 57] running) ∧
    RequestDue 0x1B 0x21 [6, 127, 58] (requesting 0x1B 0x21 [6, 127, 58] running) ∧
    RequestDue 0x1B 0x21 [0, 0, 0] (requesting 0x1B 0x21 [0, 0, 0] running) :=
  ⟨running_isDue .., running_isDue .., running_isDue .., running_isDue ..⟩

theorem witness_ClearCanvasFillsEveryCell :
    RequestDue 0x1E 0x21 [1, 0xFF] (requesting 0x1E 0x21 [1, 0xFF] running) ∧
    RequestDue 0x1E 0x21 [2, 0] (requesting 0x1E 0x21 [2, 0] running) :=
  ⟨running_isDue .., running_isDue ..⟩

theorem witness_CursorRequestsAnswer :
    RequestDue 0x1C 0x21 [0xFF, 0x0F, 1] (requesting 0x1C 0x21 [0xFF, 0x0F, 1] running) ∧
    RequestDue 0x1C 0x21 [0, 0x10, 1] (requesting 0x1C 0x21 [0, 0x10, 1] running) ∧
    (RequestDue 0x1D 0x21 (1 :: 7 :: List.replicate 57 3) (requesting 0x1D 0x21 (1 :: 7 :: List.replicate 57 3) running) ∧
      running.canvas.pixels.wf = true ∧ running.canvas.attributes.wf = true) ∧
    RequestDue 0x1D 0x21 [2, 0, 3] (requesting 0x1D 0x21 [2, 0, 3] running) :=
  ⟨running_isDue .., running_isDue .., ⟨running_isDue .., rfl, rfl⟩, running_isDue ..⟩

theorem witness_ViewRequestsAnswer :
    RequestDue 0x20 0x21 [1, 3, 3, 159, 63, 160, 64, 255, 127, 0, 0, 255, 127, 0, 1, 0, 1]
      (requesting 0x20 0x21 [1, 3, 3, 159, 63, 160, 64, 255, 127, 0, 0, 255, 127, 0, 1, 0, 1] running) ∧
    RequestDue 0x21 0x21 [1, 4] (requesting 0x21 0x21 [1, 4] running) ∧ RequestDue 0x22 0x21 [2] (requesting 0x22 0x21 [2] running) ∧
    RequestDue 0x23 0x21 [1] (requesting 0x23 0x21 [1] running) :=
  ⟨running_isDue .., running_isDue .., running_isDue .., running_isDue ..⟩

/-- A COPY of 64 staging bytes from offset 0 on (section 6.8). -/
def copyAll : Descriptor :=
  { action := .copy 0 { column := 4, row := 40, width := 8, height := 8 } .apply 0, next := none, release := true }

/-- A pool whose slots are Free, but for one, holds legal descriptors where that one does. -/
theorem poolLegal_of_one (i : Fin 32) (slot : PoolSlot) (h : ∀ d, slotRecord slot = some d → d.action.legal) :
    PoolLegal (defaultChains.pool.set i slot) := by
  intro j d hd
  by_cases e : i = j
  · subst e
    exact h d (by simpa using hd)
  · have hne : i.val ≠ j.val := fun c => e (Fin.ext c)
    simp [hne, defaultChains, slotRecord] at hd

theorem witness_StageWritesOrIsLocked :
    (RequestDue 0x28 0x21 [0xFF, 3, 1, 2] (requesting 0x28 0x21 [0xFF, 3, 1, 2] running) ∧ 1024 < 0x3FF + 2) ∧
    (RequestDue 0x28 0x21 [63, 0, 1] (requesting 0x28 0x21 [63, 0, 1] (loaded 0 (.held 5 copyAll) running)) ∧
      PoolLegal (loaded 0 (.held 5 copyAll) running).chains.pool ∧
      (loaded 0 (.held 5 copyAll) running).chains.pool[(0 : Fin 32)] = .held 5 copyAll) ∧
    (RequestDue 0x28 0x21 [64, 0, 1] (requesting 0x28 0x21 [64, 0, 1] (loaded 0 (.held 5 copyAll) running)) ∧
      ∀ (i : Fin 32) (h : Byte) (d : Descriptor), (loaded 0 (.held 5 copyAll) running).chains.pool[i] = .held h d → d = copyAll) ∧
    running.staging.wf = true ∧ PoolLegal running.chains.pool := by
  refine ⟨⟨running_isDue .., by decide⟩, ⟨requesting_isDue _ _ _ _ (.inl rfl), ?_, rfl⟩, ⟨requesting_isDue _ _ _ _ (.inl rfl), ?_⟩, rfl, ?_⟩
  · refine poolLegal_of_one 0 _ fun d hd => ?_
    cases hd
    exact ⟨⟨by decide, by decide, by decide, by decide⟩, by decide⟩
  · intro i h d hd
    by_cases e : (0 : Fin 32) = i
    · subst e
      injection hd with _ hd
      exact hd.symm
    · have hne : (0 : Fin 32).val ≠ i.val := fun c => e (Fin.ext c)
      have hne' : ¬ 0 = i.val := hne
      simp [loaded, running, inPower, State.reset, defaultChains, hne'] at hd
  · intro i d hd
    simp [running, inPower, State.reset, defaultChains, slotRecord] at hd

theorem witness_DescriptorRequestsAnswer :
    (RequestDue 0x29 0x21 [31, 1, 0xFF, 1, 0xFF, 3, 31, 127, 1, 1, 1, 0xFF]
        (requesting 0x29 0x21 [31, 1, 0xFF, 1, 0xFF, 3, 31, 127, 1, 1, 1, 0xFF] running) ∧
      loadable 1 [0xFF, 3, 31, 127, 1, 1, 1, 0xFF] ∧ running.chains.pool[(31 : Fin 32)].isHeld = false) ∧
    (RequestDue 0x29 0x21 [5, 6, 31, 0, 0, 0, 0, 0, 0, 0, 0, 0]
        (requesting 0x29 0x21 [5, 6, 31, 0, 0, 0, 0, 0, 0, 0, 0, 0] (chained running)) ∧
      loadable 6 [0, 0, 0, 0, 0, 0, 0, 0] ∧ (chained running).chains.pool[(5 : Fin 32)].isHeld = true) ∧
    (RequestDue 0x29 0x21 [5, 7, 32, 0, 0, 0, 0, 0, 0, 0, 0, 0]
        (requesting 0x29 0x21 [5, 7, 32, 0, 0, 0, 0, 0, 0, 0, 0, 0] running) ∧ ¬ loadable 7 [0, 0, 0, 0, 0, 0, 0, 0]) ∧
    RequestDue 0x2A 0x21 [31] (requesting 0x2A 0x21 [31] running) ∧ RequestDue 0x2A 0x21 [32] (requesting 0x2A 0x21 [32] running) ∧
    RequestDue 0x2E 0x21 [0] (requesting 0x2E 0x21 [0] running) ∧ RequestDue 0x2E 0x21 [255] (requesting 0x2E 0x21 [255] running) := by
  refine ⟨⟨running_isDue .., ?_, rfl⟩, ⟨requesting_isDue _ _ _ _ (.inl rfl), ?_, rfl⟩, ⟨running_isDue .., ?_⟩, running_isDue .., running_isDue ..,
    running_isDue .., running_isDue ..⟩
  · exact ⟨⟨by decide, by decide, by decide, by decide⟩, by decide, by decide⟩
  · exact trivial
  · exact id

/-- Two Loaded slots, 4 and then 6, that form a chain. -/
def pair : State :=
  loaded 4 (.loaded { action := .mark 1, next := some 6, release := false })
    (loaded 6 (.loaded { action := .mark 2, next := none, release := true }) running)

theorem running_chainQueueGood : ChainQueueGood running :=
  ⟨by decide, by decide, by decide, fun c h => absurd h (by decide +revert), List.Pairwise.nil⟩

theorem pair_chainQueueGood : ChainQueueGood pair :=
  ⟨by decide, by decide, by decide, fun c h => absurd h (List.not_mem_nil), List.Pairwise.nil⟩

theorem witness_SubmitChainHoldsAndQueues :
    ChainQueueGood pair ∧
    RequestDue 0x2B 0x21 [4, 0, 9, 9, 1] (requesting 0x2B 0x21 [4, 0, 9, 9, 1] pair) ∧
    RequestDue 0x2B 0x21 [4, 1, 255, 0, 0] (requesting 0x2B 0x21 [4, 1, 255, 0, 0] pair) ∧
    RequestDue 0x2B 0x21 [4, 2, 0xFF, 0xFF, 0] (requesting 0x2B 0x21 [4, 2, 0xFF, 0xFF, 0] pair) ∧
    pair.power.state = .run ∧ pair.chains.queue.length < 4 ∧ ([4, 6] : List (Fin 32)).head? = some 4 ∧ ([4, 6] : List (Fin 32)).Nodup ∧
    loadedPath pair.chains.pool [4, 6] ∧ pathNext pair.chains.pool [4, 6] none :=
  ⟨pair_chainQueueGood, requesting_isDue _ _ _ _ (.inl rfl), requesting_isDue _ _ _ _ (.inl rfl), requesting_isDue _ _ _ _ (.inl rfl), rfl,
    by decide, rfl, by decide, ⟨⟨_, rfl, rfl⟩, _, rfl⟩, ⟨_, _, rfl, rfl, rfl⟩⟩

/-- The part with a full pending chain queue. -/
def full : State :=
  { running with chains := { running.chains with queue := List.replicate 4 { handle := 9, head := 5, length := 1, due := 1, urgent := false } } }

/-- The 32 slots, all Loaded and linked into a ring. -/
def ringed : State :=
  let pool := Vector.ofFn fun i : Fin 32 => PoolSlot.loaded { action := .mark 0, next := some (i + 1), release := false }
  { running with chains := { running.chains with pool := pool } }

theorem ringed_path : loadedPath ringed.chains.pool (List.finRange 32) := by
  have h : ∀ i : Fin 32, ringed.chains.pool[i] = .loaded { action := .mark 0, next := some (i + 1), release := false } := by
    intro i; simp [ringed]
  simp only [List.finRange, List.ofFn_succ, List.ofFn_zero, loadedPath]
  refine ⟨?_, ?_⟩ <;> first | exact ⟨_, h _, rfl⟩ | skip
  repeat' (first | exact ⟨_, h _⟩ | refine ⟨⟨_, h _, rfl⟩, ?_⟩)

theorem witness_SubmitChainRefusals :
    RequestDue 0x2B 0x21 [32, 0, 0, 0, 0] (requesting 0x2B 0x21 [32, 0, 0, 0, 0] running) ∧
    RequestDue 0x2B 0x21 [31, 1, 0, 1, 0] (requesting 0x2B 0x21 [31, 1, 0, 1, 0] running) ∧
    RequestDue 0x2B 0x21 [31, 2, 0, 0, 0] (requesting 0x2B 0x21 [31, 2, 0, 0, 0] (inPower .doze)) ∧
    (RequestDue 0x2B 0x21 [0, 0, 0, 0, 0] (requesting 0x2B 0x21 [0, 0, 0, 0, 0] full) ∧ full.power.state = .run ∧
      4 ≤ full.chains.queue.length) ∧
    (RequestDue 0x2B 0x21 [0, 0, 0, 0, 0] (requesting 0x2B 0x21 [0, 0, 0, 0, 0] running) ∧ running.chains.queue.length < 4 ∧
      ∀ d, running.chains.pool[(0 : Fin 32)] ≠ .loaded d) ∧
    (loadedPath ringed.chains.pool (List.finRange 32) ∧ pathNext ringed.chains.pool (List.finRange 32) (some 0) ∧
      (List.finRange 32).Nodup ∧ (List.finRange 32).length = 32 ∧ ringed.chains.queue.length < 4) ∧
    (loadedPath pair.chains.pool [4] ∧ pathNext pair.chains.pool [4] (some 6)) := by
  refine ⟨running_isDue .., running_isDue .., dozing_isDue .., ⟨requesting_isDue _ _ _ _ (.inl rfl), rfl, by decide⟩,
    ⟨running_isDue .., by decide, fun d h => by cases h⟩, ⟨ringed_path, ⟨31, _, by decide +kernel, by simp [ringed]; rfl, rfl⟩,
      List.nodup_finRange 32, List.length_finRange, by decide⟩, ⟨_, rfl⟩, ⟨_, _, rfl, rfl, rfl⟩⟩

/-- Every slot of the pool of `chained running` but slot 5 is Free. -/
theorem chained_pool (i : Fin 32) : (chained running).chains.pool[i] =
    if i = 5 then .held 9 { action := .mark 7, next := none, release := true } else .free := by
  by_cases e : i = 5
  · subst e; rfl
  · have hne : ¬ 5 = i.val := fun c => e (Fin.ext c.symm)
    simp [chained, loaded, running, inPower, State.reset, defaultChains, e, hne]

theorem chained_holdsGood : HoldsGood (chained running) := by
  refine ⟨⟨by decide, by decide, by decide, fun c h => ?_, List.pairwise_singleton ..⟩, fun c h => ?_, fun i g d hi => ?_⟩
  · rw [List.mem_singleton.mp h]; decide
  · rw [List.mem_singleton.mp h]
    refine ⟨by decide +kernel, by decide +kernel, fun i => ?_⟩
    have hslots : chainSlots (chained running).chains.pool 32 5 = [5] := by decide +kernel
    rw [chained_pool]
    show i ∈ chainSlots (chained running).chains.pool 32 5 ↔ _
    rw [hslots]
    by_cases e : i = 5 <;> simp [e]
  · refine ⟨_, List.mem_singleton_self _, ?_⟩
    rw [chained_pool] at hi
    split at hi
    · injection hi
    · cases hi

theorem witness_CancelChainReleasesSlots :
    RequestDue 0x2C 0x21 [0] (requesting 0x2C 0x21 [0] (chained running)) ∧
    (RequestDue 0x2C 0x21 [255] (requesting 0x2C 0x21 [255] (chained running)) ∧
      ∀ c ∈ (chained running).chains.queue, c.handle ≠ 255) ∧
    RequestDue 0x2C 0x21 [9] (requesting 0x2C 0x21 [9] (chained running)) ∧ HoldsGood (chained running) ∧
    ∃ c ∈ (chained running).chains.queue, c.handle = 9 :=
  ⟨requesting_isDue _ _ _ _ (.inl rfl), ⟨requesting_isDue _ _ _ _ (.inl rfl), by decide⟩, requesting_isDue _ _ _ _ (.inl rfl),
    chained_holdsGood, _, List.mem_singleton_self _, rfl⟩

theorem witness_ChainStatusReports :
    RequestDue 0x2D 0x21 [] (requesting 0x2D 0x21 [] full) ∧ full.chains.queue.length ≤ 4 ∧ full.chains.outcomes.length ≤ 4 :=
  ⟨requesting_isDue _ _ _ _ (.inl rfl), by decide, by decide⟩

theorem witness_ConfigureScanReplacesAll :
    RequestDue 0x30 0x21 [10, 6, 32, 7, 255, 255] (requesting 0x30 0x21 [10, 6, 32, 7, 255, 255] (keyIn 14 .down running)) ∧
    RequestDue 0x30 0x21 [1, 1, 2, 1, 10, 2] (requesting 0x30 0x21 [1, 1, 2, 1, 10, 2] (inPower .doze)) ∧
    RequestDue 0x30 0x21 [11, 6, 32, 7, 255, 255] (requesting 0x30 0x21 [11, 6, 32, 7, 255, 255] running) :=
  ⟨requesting_isDue _ _ _ _ (.inl rfl), dozing_isDue .., running_isDue ..⟩

theorem witness_SetKeyActsOnTheKey :
    (downCount (keyIn 63 .down running) ≤ 8 ∧ RequestDue 0x31 0x21 [63, 0] (requesting 0x31 0x21 [63, 0] (keyIn 63 .down running)) ∧
      (keyIn 63 .down running).scanner.table[(63 : Fin 64)].enabled = true ∧
      (keyIn 63 .down running).scanner.states[(63 : Fin 64)].reported = true) ∧
    (RequestDue 0x31 0x21 [64, 0] (requesting 0x31 0x21 [64, 0] running) ∧ 64 ≤ (64 : Byte).toNat) ∧
    RequestDue 0x31 0x21 [0, 7] (requesting 0x31 0x21 [0, 7] running) ∧ downCount running ≤ 8 :=
  ⟨⟨by decide +kernel, requesting_isDue _ _ _ _ (.inl rfl), by decide +kernel, by decide +kernel⟩, ⟨running_isDue .., by decide⟩,
    running_isDue .., by decide +kernel⟩

theorem witness_KeyQueueAndStatesAnswer :
    RequestDue 0x32 0x21 [12] (requesting 0x32 0x21 [12] running) ∧ RequestDue 0x32 0x21 [13] (requesting 0x32 0x21 [13] running) ∧
    RequestDue 0x33 0x21 [] (requesting 0x33 0x21 [] running) ∧ RequestDue 0x34 0x21 [0] (requesting 0x34 0x21 [0] running) ∧
    RequestDue 0x34 0x21 [] (requesting 0x34 0x21 [] repeating) :=
  ⟨running_isDue .., running_isDue .., running_isDue .., running_isDue .., requesting_isDue _ _ _ _ (.inl rfl)⟩

theorem witness_TimebaseRequestsAnswer :
    RequestDue 0x38 0x21 [] (requesting 0x38 0x21 [] running) ∧
    RequestDue 0x39 0x21 [2, 0xFF, 0xFF, 1] (requesting 0x39 0x21 [2, 0xFF, 0xFF, 1] running) ∧
    RequestDue 0x39 0x21 [1, 0, 0, 1] (requesting 0x39 0x21 [1, 0, 0, 1] running) ∧
    RequestDue 0x3A 0x21 [64, 2] (requesting 0x3A 0x21 [64, 2] running) ∧ RequestDue 0x3A 0x21 [65, 3] (requesting 0x3A 0x21 [65, 3] running) :=
  ⟨running_isDue .., running_isDue .., running_isDue .., running_isDue .., running_isDue ..⟩

/-- The part in Run with a tick waiting. -/
def ticking : State := running.withPending [.tick]

theorem witness_StepTakesFrontCommand : ticking.pending = .tick :: [] ∧ running.pending = [] := ⟨rfl, rfl⟩

theorem witness_LinkDataWriteIsHeldOrOverruns :
    (State.reset.pins.rstLow = false ∧ State.reset.power.state = .starting) ∧
    ((inPower .sleep).pins.rstLow = false ∧ (inPower .sleep).power.state ≠ .starting ∧ (inPower .sleep).link.holding = none) ∧
    ((holding 7 running).pins.rstLow = false ∧ (holding 7 running).power.state ≠ .starting ∧ (holding 7 running).link.holding = some 7) :=
  ⟨⟨rfl, rfl⟩, ⟨rfl, by decide, rfl⟩, rfl, by decide, rfl⟩

/-- The part with one byte in the ring. -/
def ringing (p : PowerState) : State := { inPower p with link := { (inPower p).link with ring := [0xAA] } }

theorem witness_PortReadsReturn :
    running.link.ring = [] ∧ (Settled (ringing .sleepPending) ∧ (ringing .sleepPending).link.ring = 0xAA :: []) ∧
    Settled (ringing .run) ∧ (ringing .run).link.ring = 0xAA :: [] :=
  ⟨rfl, ⟨⟨rfl, rfl⟩, rfl⟩, ⟨rfl, rfl⟩, rfl⟩

theorem witness_ResyncClearsTheLink :
    running.pins.rstLow = false ∧ (0xFD : Byte).getLsbD 0 = true ∧ (0xFD : Byte).getLsbD 1 = false ∧
    State.reset.power.state = .starting ∧ running.power.state ≠ .starting := by decide +kernel

/-- The part with RST held low. -/
def held : State := { State.reset with pins := { State.reset.pins with rstLow := true } }

theorem witness_ResetsGiveTheDefaults :
    (running.pins.rstLow = false ∧ (0x02 : Byte).getLsbD 1 = true) ∧ held.pins.rstLow = true ∧ (0xFD : Byte).getLsbD 1 = false ∧
    (7 : PortAddress) ≠ 1 := by decide +kernel

theorem witness_NoticePortWritesAct : running.pins.rstLow = false := rfl

theorem witness_LatchAttnAndTopNoticeAgree :
    (let s : State := { running with notices := { sticky := 0x400, mask := 0x400 } }
    (portRead 3 s).getLsbD 2 = true ∧ (portRead 5 s).getLsbD 2 = true ∧
      ∀ m, m < 10 → ¬ ((if m < 8 then (portRead 2 s).getLsbD m else (portRead 3 s).getLsbD (m - 8)) = true ∧
        (if m < 8 then (portRead 4 s).getLsbD m else (portRead 5 s).getLsbD (m - 8)) = true)) := by decide +kernel

theorem witness_LengthByteIsTaken :
    (Settled (holding 3 running) ∧ (holding 3 running).link.assembler = .awaitLength false ∧ (holding 3 running).requests.slots.length < 4 ∧
      (holding 3 running).power.state = .run ∧ (3 : Byte).toNat = 3) ∧
    (Settled (holding 63 (inPower .sleepPending)) ∧ (holding 63 (inPower .sleepPending)).power.state = .sleepPending) ∧
    (Settled (holding 64 running) ∧ ¬ (64 : Byte).toNat ≤ 63) ∧ Settled (holding 2 running) ∧ ¬ 3 ≤ (2 : Byte).toNat :=
  ⟨⟨⟨rfl, rfl⟩, rfl, by decide, rfl, rfl⟩, ⟨⟨rfl, rfl⟩, rfl⟩, ⟨⟨rfl, rfl⟩, by decide⟩, ⟨rfl, rfl⟩, by decide⟩

theorem witness_BytesAreCollectedDiscardedOrWait :
    (let s := holding 7 (collecting 2 3 true 20 [] running)
    Settled s ∧ s.link.holding = some 7 ∧ s.power.state = .run ∧ s.link.assembler = .collecting 2 3 true 20 ∧
      s.requests.slots = [] ++ [{ stage := .filling, stored := [] }]) ∧
    (Settled (holding 7 (assembling (.hunting 1) (inPower .doze))) ∧
      (holding 7 (assembling (.hunting 1) (inPower .doze))).link.assembler = .hunting 1) ∧
    (Settled running ∧ running.link.holding = none) ∧
    let s : State := { holding 7 running with requests := { slots := List.replicate 4 { stage := .waitingGood, stored := [] }, engine := .idle } }
    Settled s ∧ 4 ≤ s.requests.slots.length ∧ s.link.assembler = .awaitLength false :=
  ⟨⟨⟨rfl, rfl⟩, rfl, rfl, rfl, rfl⟩, ⟨⟨rfl, rfl⟩, rfl⟩, ⟨⟨rfl, rfl⟩, rfl⟩, ⟨rfl, rfl⟩, by decide, rfl⟩

/-- The part with the last byte of a parcel held; its first bytes are Kind and Tag. -/
def ending (sum : Byte) (damaged : Bool) (kind : Byte) : State := holding 5 (collecting 1 sum damaged 20 [kind, 0x21] running)

theorem witness_LastByteCompletesTheParcel :
    (∀ sum damaged kind, let s := ending sum damaged kind
      Settled s ∧ s.link.holding = some 5 ∧ s.power.state = .run ∧ s.link.assembler = .collecting 1 sum damaged 20 ∧
        s.requests.slots = [] ++ [{ stage := .filling, stored := [kind, 0x21] }] ∧ 2 ≤ [kind, (0x21 : Byte)].length) ∧
    (0xFA : Byte) + 5 ≠ 0 ∧ (0xFB : Byte) + 5 = 0 ∧ 0x80 ≤ (([0x80, 0x21] : List Byte).getD 0 0).toNat ∧
    (([0x7F, 0x21] : List Byte).getD 0 0).toNat < 0x80 :=
  ⟨fun _ _ _ => ⟨⟨rfl, rfl⟩, rfl, rfl, rfl, rfl, Nat.le_refl 2⟩, by decide, by decide, by decide, by decide⟩

theorem witness_SentParcelsAreWellFormed : (List.replicate 60 (1 : Byte)).length ≤ 60 := by decide

theorem witness_EveryRequestAnswersOnce :
    requestCode .wake = some 0x3D ∧ RequestDue 0x3D 0x21 [] (requesting 0x3D 0x21 [] (inPower .doze)) ∧
    requestCode .submitChain = some 0x2B ∧ RequestDue 0x2B 0x21 [4, 0, 0, 0, 0] (requesting 0x2B 0x21 [4, 0, 0, 0, 0] running) :=
  ⟨rfl, dozing_isDue .., rfl, running_isDue ..⟩

theorem witness_RequestsWaitOrAreUnknown :
    RequestDue 0x14 0x21 [] (requesting 0x14 0x21 [] running) ∧ (∀ c, requestCode c ≠ some 0x14) ∧
    RequestDue 0x01 0x21 [] (requesting 0x01 0x21 [] running) ∧ requestCode .identify = some 0x01 ∧
    (inPower .sleep).power.state ≠ .run ∧ (inPower .sleep).power.state ≠ .doze := by
  refine ⟨running_isDue .., fun c => ?_, running_isDue .., rfl, by decide, by decide⟩
  cases c <;> simp [requestCode]

theorem witness_PostingAppendsTheWholeAnswer :
    (let s := replying [1, 2, 3, 4, 5, 6] .nothing { running with link := { running.link with ring := List.replicate 187 0 } }
    s.requests.engine = .replying { bytes := [1, 2, 3, 4, 5, 6], effect := .nothing } ∧ 192 < s.link.ring.length + 6) ∧
    (∀ a, running.requests.engine ≠ .replying a) ∧
    let s := replying [1, 2, 3, 4, 5, 6] .nothing { running with link := { running.link with ring := List.replicate 186 0 } }
    s.requests.engine = .replying { bytes := [1, 2, 3, 4, 5, 6], effect := .nothing } ∧
      s.requests.slots = { stage := .replying, stored := [0x02, 0x21, 0] } :: [] ∧ s.link.ring.length + 6 ≤ 192 ∧ s.power.state = .run :=
  ⟨⟨rfl, by decide +kernel⟩, fun _ h => EngineState.noConfusion h, rfl, rfl, by decide +kernel, rfl⟩

theorem witness_PostingOfRestartResetsWarm :
    let s : State := { running with requests :=
      { slots := { stage := .replying, stored := [5, 0x21, 0] } ::
          [{ stage := .waitingGood, stored := [1, 0x22, 0] }, { stage := .waitingRejected .sum, stored := [1, 0x23, 1] },
           { stage := .filling, stored := [] }]
        engine := .replying { bytes := [1, 2, 3, 4, 5, 6], effect := .warmReset } } }
    (∃ a, s.requests.engine = .replying a ∧ a.effect = .warmReset ∧ s.link.ring.length + a.bytes.length ≤ 192) ∧ s.power.state = .run ∧
      ∀ slot ∈ s.requests.slots.tail, slot.stage = .filling ∨ slot.stage = .waitingGood ∨ ∃ reason, slot.stage = .waitingRejected reason := by
  refine ⟨⟨_, rfl, rfl, by decide⟩, rfl, fun slot h => ?_⟩
  simp only [List.tail_cons, List.mem_cons, List.not_mem_nil, or_false] at h
  rcases h with rfl | rfl | rfl
  · exact .inr (.inl rfl)
  · exact .inr (.inr ⟨_, rfl⟩)
  · exact .inl rfl

theorem witness_PostingLeavesRun :
    (∃ a, (replying [1] .enterDoze running).requests.engine = .replying a ∧ a.effect = .enterDoze ∧ a.bytes ≠ [] ∧
      (replying [1] .enterDoze running).link.ring.length + a.bytes.length ≤ 192) ∧ (replying [1] .enterDoze running).power.state = .run ∧
    ∃ a, (replying [1] .enterSleep running).requests.engine = .replying a ∧ a.effect = .enterSleep ∧ a.bytes ≠ [] :=
  ⟨⟨_, rfl, rfl, by decide, by decide⟩, rfl, _, rfl, rfl, by decide⟩

theorem witness_SleepIsEnteredAndLeft :
    ((inPower .sleepPending).power.state = .sleepPending ∧ (inPower .sleepPending).link.ring = [] ∧
      (inPower .sleepPending).link.assembler = .awaitLength false ∧ (inPower .sleepPending).link.holding = none) ∧
    (ringing .sleepPending).link.ring ≠ [] ∧
    (∃ s : State, s.power.state = .sleep ∧ s.power.wakeDue = true) ∧ running.power.wakeDue = false ∧
    (State.reset.power.state = .starting ∧ State.reset.pins.rstLow = false) ∧ running.power.state ≠ .starting :=
  ⟨⟨rfl, rfl, rfl, rfl⟩, by decide, ⟨{ running with power := { running.power with state := .sleep, wakeDue := true } }, rfl, rfl⟩, rfl,
    ⟨rfl, rfl⟩, by decide⟩

theorem witness_BoundaryRunsItsNineSteps :
    (let s : State := { chained running with frames := { running.frames with row := some 0 } }
    Settled s ∧ s.power.state = .run ∧ s.frames.resuming = false ∧ s.panel.snapshot.mode = .off) ∧
    (let s : State := { showing with frames := { showing.frames with row := some 64 } }
    Settled s ∧ s.power.state = .run ∧ s.frames.resuming = false ∧ s.frames.row = some 64 ∧ ¬ 64 < s.panel.rows.toNat) ∧
    (Settled showing ∧ showing.panel.snapshot.mode ≠ .off ∧ showing.frames.row = some 5 ∧ 5 < showing.panel.rows.toNat) ∧
    let s : State := { ringing .sleepPending with frames := { running.frames with resuming := true } }
    Settled s ∧ s.power.state = .sleepPending ∧ s.frames.resuming = true :=
  ⟨⟨⟨rfl, rfl⟩, rfl, rfl, rfl⟩, ⟨⟨rfl, rfl⟩, rfl, rfl, rfl, by decide⟩, ⟨⟨rfl, rfl⟩, by decide, rfl, by decide⟩, ⟨rfl, rfl⟩, rfl, rfl⟩

theorem witness_DueChainsAreApplied :
    (HoldsGood (chained running) ∧ ∀ c ∈ (chained running).chains.queue, c.due ≠ (chained running).frames.counter) ∧
    let s : State := { chained running with frames := { running.frames with counter := 1 } }
    HoldsGood s ∧ ∃ c, s.chains.queue = [] ++ c :: [] ∧ c.due = s.frames.counter :=
  ⟨⟨chained_holdsGood, by decide⟩, ⟨chained_holdsGood.1.rec fun a b c d e => ⟨a, b, c, d, e⟩, chained_holdsGood.2, chained_holdsGood.3⟩,
    _, rfl, rfl⟩

theorem witness_ChainActionsHaveTheirEffect :
    (Rectangle.legal { column := 31, row := 127, width := 1, height := 1 } ∧ Rectangle.legal { column := 0, row := 0, width := 32, height := 128 } ∧
      running.canvas.pixels.wf = true ∧ running.canvas.attributes.wf = true) ∧
    (let v := (running.views.table .primary)[(0 : Fin 4)]
    (v.record.bandLeft.toNat ≤ 255 ∧ 255 ≤ v.record.bandRight.toNat) ∧ v.record.bandTop.toNat ≤ 127 ∧ 127 ≤ v.record.bandBottom.toNat) ∧
    ¬ 128 ≤ (running.views.table .primary)[(0 : Fin 4)].record.bandBottom.toNat :=
  ⟨⟨⟨by decide, by decide, by decide, by decide⟩, ⟨by decide, by decide, by decide, by decide⟩, rfl, rfl⟩, by decide +kernel, by decide +kernel⟩

theorem witness_AutoScrollMovesWithinTheBand :
    View.good { record := { ticker with originY := 23 }, verticalCount := 2, horizontalCount := 0 } ∧
    View.good { record := { ticker with originY := 16, verticalDirection := .down }, verticalCount := 1, horizontalCount := 0 } :=
  ⟨⟨by decide +kernel, by simp [countBelow, ticker], by simp [countBelow, ticker, defaultViewRecord]⟩,
    by decide +kernel, by simp [countBelow, ticker], by simp [countBelow, ticker, defaultViewRecord]⟩

theorem witness_RowIsScannedOut :
    (let s : State := { showing with frames := { showing.frames with row := some 63 } }
    s.frames.row = some 63 ∧ s.power.state = .run ∧ 63 < s.panel.rows.toNat ∧ s.panel.snapshot.mode ≠ .off) ∧
    (let s : State := { showing with frames := { showing.frames with row := some 64 } }
    s.frames.row = some 64 ∧ s.panel.rows.toNat ≤ 64) ∧ running.panel.snapshot.mode = .off ∧ (inPower .sleep).power.state = .sleep := by
  decide +kernel

theorem witness_PixelIsComposed :
    (let p := showing.panel.snapshot
    p.source = .primary ∧ p.primary[(0 : Fin 4)] = corner ∧ corner.legal = true ∧
      (corner.left.toNat ≤ 127 ∧ 127 < corner.left.toNat + corner.width.toNat) ∧ corner.top.toNat ≤ 15 ∧ 15 < corner.top.toNat + corner.height.toNat) ∧
    (¬ corner.left.toNat ≤ 10 ∧ showing.panel.snapshot.primary[(1 : Fin 4)] = whole ∧ whole.legal = true) ∧
    ∀ i : Fin 4, running.panel.snapshot.primary[i].enabled = false := by decide +kernel

/-- The part in Doze with a gap timer, an alarm with Wake and a link watch that all end at the next tick. -/
def allEnding : State :=
  { collecting 3 0 false 1 [] (inPower .doze) with time := { running.time with
      alarmMode := .periodic, alarmPeriod := 9, alarmCount := 1, alarmWake := true, watchPeriod := 64,
      watchAction := .fallbackAndShow, watchCount := 1 } }

theorem witness_TickServesItsTimers :
    (Settled (inPower .sleep) ∧ (inPower .sleep).power.state = .sleep) ∧
    (Settled running ∧ running.power.state = .run ∧ ¬ alarmAtEnd running ∧ ¬ watchAtEnd running ∧ gapRuns running.link.assembler) ∧
    (let s := collecting 3 0 false 1 [] (inPower .sleepPending)
    Settled s ∧ s.power.state = .sleepPending ∧ ¬ alarmAtEnd s ∧ ¬ watchAtEnd s ∧ s.link.assembler = .collecting 3 0 false 1 ∧
      s.requests.slots = [] ++ [{ stage := .filling, stored := [] }]) ∧
    (let s := assembling (.hunting 1) (inPower .doze)
    Settled s ∧ s.power.state = .doze ∧ s.link.assembler = .hunting 1) ∧
    let s := allEnding
    Settled s ∧ s.power.state = .doze ∧ s.link.assembler.good ∧ (∀ slot ∈ s.requests.slots.dropLast, slot.stage ≠ .filling) ∧
      s.link.assembler = .collecting 3 0 false 1 ∧ alarmAtEnd s ∧ watchAtEnd s :=
  ⟨⟨⟨rfl, rfl⟩, rfl⟩, ⟨⟨rfl, rfl⟩, rfl, fun h => h.1 rfl, fun h => h.1 rfl, trivial⟩,
    ⟨⟨rfl, rfl⟩, rfl, fun h => h.1 rfl, fun h => h.1 rfl, rfl, rfl⟩, ⟨⟨rfl, rfl⟩, rfl, rfl⟩,
    ⟨rfl, rfl⟩, rfl, ⟨by decide, by decide, by decide, by decide⟩, by decide, rfl, ⟨by decide, rfl⟩, by decide, rfl, rfl⟩

theorem witness_AlarmAndWatchExpire :
    (let s : State := { inPower .doze with time := { running.time with alarmMode := .oneShot, alarmPeriod := 9, alarmCount := 1, alarmWake := true } }
    Settled s ∧ s.power.state = .doze ∧ gapRuns s.link.assembler ∧ alarmAtEnd s ∧ ¬ watchAtEnd s) ∧
    (let s : State := { running with time := { running.time with watchPeriod := 64, watchAction := .fallbackAndShow, watchCount := 1 } }
    Settled s ∧ s.power.state = .run ∧ gapRuns s.link.assembler ∧ watchAtEnd s ∧ ¬ alarmAtEnd s) ∧
    ¬ alarmAtEnd running ∧ ¬ watchAtEnd running :=
  ⟨⟨⟨rfl, rfl⟩, rfl, trivial, ⟨by decide, rfl⟩, fun h => h.1 rfl⟩, ⟨⟨rfl, rfl⟩, rfl, trivial, ⟨by decide, rfl, rfl⟩, fun h => h.1 rfl⟩,
    fun h => h.1 rfl, fun h => h.1 rfl⟩

/-- One closed key leaves no key at the corner of a rectangle. -/
theorem lone_key_is_not_cornered (c : ScanConfig) (k j : Fin 64) : ¬ cornered (sampled c (BitVec.twoPow 64 k.val)) j := by
  rintro ⟨_, d, s, hd, hs, hdne, hsne, hrow, hcolumn, _⟩
  have only : ∀ n, (sampled c (BitVec.twoPow 64 k.val)).getLsbD n = true → n = k.val := fun n h => by
    simp only [sampled, BitVec.getLsbD_and, BitVec.getLsbD_twoPow, Bool.and_eq_true, decide_eq_true_eq] at h
    exact h.1.2.symm
  have h1 := only _ hrow
  have h2 := only _ hcolumn
  omega

/-- With one closed key, every other key that is Idle is steady. -/
theorem other_keys_are_steady (contacts : KeySet) (k : Fin 64) (st : KeyState) (j : Fin 64) (h : j ≠ k) :
    steadyKey (touching contacts (passing (keyIn k st running))) (BitVec.twoPow 64 k.val) j := by
  have hne : ¬ k.val = j.val := fun e => h (Fin.ext e.symm)
  refine .inr (.inl ⟨fun ⟨hc, _⟩ => ?_, ?_⟩)
  · simp only [BitVec.getLsbD_twoPow, Bool.and_eq_true, decide_eq_true_eq] at hc
    exact hne hc.2
  · simp [touching, passing, keyIn, running, inPower, State.reset, defaultScanner, hne]

theorem witness_ScanPassMovesEveryKey : ¬ passOwed running ∧ passOwed (passing (keyIn 6 (.settlingDown 2) running)) :=
  ⟨fun h => absurd h.1 (by decide), by decide, .inl rfl⟩

theorem witness_ScanPassReportsAPress :
    let s := touching (BitVec.twoPow 64 6) (passing (keyIn 6 (.settlingDown 2) running))
    let closed := BitVec.twoPow 64 6
    linesShow 0 s = closed ∧ passOwed s ∧ s.scanner.config.drives ≤ 10 ∧ s.scanner.config.senses ≤ 6 ∧
    (∀ j : Fin 64, readsClosed s.scanner.config closed j → ¬ cornered (sampled s.scanner.config closed) j) ∧
    (∀ j : Fin 64, j ≠ 6 → steadyKey s closed j) ∧ s.scanner.table[(6 : Fin 64)].enabled = true ∧
    readsClosed s.scanner.config closed 6 ∧ (∃ n, s.scanner.states[(6 : Fin 64)] = .settlingDown n ∧ s.scanner.config.settle ≤ n + 1) ∧
    downCount s < 8 ∧ s.keys.dropped = 0 ∧ downCount s + 2 + s.keys.events.length ≤ 24 :=
  ⟨by decide +kernel, ⟨by decide, .inl rfl⟩, by decide, by decide, fun j _ => lone_key_is_not_cornered _ 6 j, other_keys_are_steady _ 6 _,
    by decide +kernel,
    ⟨by decide +kernel, .inr (by decide)⟩, ⟨2, by decide +kernel, by decide⟩, by decide +kernel, by decide +kernel, by decide +kernel⟩

/-- The part with eight reported keys. -/
def eightDown : State :=
  { running with scanner := { running.scanner with states := Vector.ofFn fun k => if k.val < 8 then .down else .idle } }

theorem witness_PressesAndOffersAreJudged :
    (cornered (keySet [6, 7, 12, 13]) 12 ∧ ¬ cornered (sampled running.scanner.config (BitVec.twoPow 64 6)) 6) ∧
    8 ≤ downCount eightDown ∧ downCount running < 8 :=
  ⟨⟨⟨by decide, 1, 1, by decide, by decide, by decide, by decide, by decide +kernel, by decide +kernel, by decide +kernel⟩,
    lone_key_is_not_cornered _ 6 6⟩, by decide +kernel, by decide +kernel⟩

theorem witness_RepeatTimerIsServed :
    linesShow 0 repeating = BitVec.twoPow 64 14 ∧ passOwed repeating ∧ repeating.scanner.config.drives ≤ 10 ∧ repeating.scanner.config.senses ≤ 6 ∧
    (∀ j : Fin 64, readsClosed repeating.scanner.config (BitVec.twoPow 64 14) j →
      ¬ cornered (sampled repeating.scanner.config (BitVec.twoPow 64 14)) j) ∧
    (∀ j : Fin 64, steadyKey repeating (BitVec.twoPow 64 14) j) ∧ repeating.scanner.owner = some 14 ∧
    repeating.scanner.states[(14 : Fin 64)] = .down ∧ repeating.scanner.repeatTimer = some 4 ∧ 4 ≤ repeating.scanner.config.period ∧
    ¬ passOwed running ∧ ¬ ghostGoesOn (linesShow 0 repeating) repeating ∧ repeatDue (linesShow 0 repeating) false repeating ∧
    passOwed (passing running) ∧ ¬ repeatDue (linesShow 0 (passing running)) false (passing running) := by
  refine ⟨by decide +kernel, ⟨by decide, .inl rfl⟩, by decide, by decide, fun j _ => lone_key_is_not_cornered _ 14 j, fun j => ?_, rfl, by decide +kernel, rfl, by decide,
    fun h => absurd h.1 (by decide), fun h => absurd h.1 (by decide),
    ⟨14, 4, by decide +kernel, by decide +kernel, by decide +kernel, by decide +kernel, by decide⟩, ⟨by decide, .inl rfl⟩,
    fun ⟨k, timer, h, _⟩ => absurd (h.symm.trans (by decide +kernel : _ = none)) nofun⟩
  by_cases e : j = 14
  · subst e
    exact .inr (.inr ⟨⟨by decide +kernel, .inr (by decide)⟩, .inl (by decide +kernel)⟩)
  · exact other_keys_are_steady (BitVec.twoPow 64 14) 14 .down j e

theorem witness_WatchedLineChangeArmsOrWakes :
    let s := watching .sleep
    (9 < 10 ∧ s.scanner.config.drives ≤ 10) ∧ s.scanner.config.drives ≤ 10 ∧ s.scanner.config.senses ≤ 6 ∧ s.power.state = .sleep ∧ 2 < s.scanner.config.senses ∧
    (∀ j : Fin 64, onLine s.scanner.config 2 j → ¬ s.pins.contacts.getLsbD j.val = true) ∧
    onLine s.scanner.config 2 14 ∧ (BitVec.twoPow 64 14).getLsbD 14 = true ∧ s.scanner.table[(14 : Fin 64)].wakes = true :=
  ⟨by decide, by decide, by decide, rfl, by decide, fun j _ => by simp [watching, inPower, State.reset, defaultPins], .inl (by decide), by decide +kernel,
    by decide +kernel⟩

/-! ## Witnesses: rules over the whole part -/

/-- The command answers a next state. -/
def goesOn (c : Instr) (s : State) : Bool :=
  match exec c s with
  | .next _ => true
  | .fault _ => false
  | .refused _ => false

/-- The next state is the one that `after` gives. -/
theorem next_after {c : Instr} {s : State} (h : goesOn c s = true) : exec c s = .next (after c s) := by
  unfold goesOn at h
  unfold after
  cases e : exec c s with
  | next t => rfl
  | fault f => rw [e] at h; cases h
  | refused r => rw [e] at h; cases h

theorem step_tick (s : State) (h : goesOn .tick (s.withPending []) = true) :
    ∃ t, step (s.withPending [.tick]) = .next t := ⟨_, next_after h⟩

/-- The part with two cells, one staging byte and one descriptor stored. -/
def stored : State :=
  { loaded 3 (.loaded copyAll) running with
    canvas := { running.canvas with pixels := [(5, 1), (4095, 0xFF)], attributes := [(5, 7)] }
    staging := [(1023, 0xAB)] }

theorem witness_MemoriesStayGood :
    MemoriesGood (stored.withPending [.tick]) ∧ ∃ t, step (stored.withPending [.tick]) = .next t :=
  ⟨⟨by decide +kernel, by decide +kernel, by decide, by decide +kernel,
    poolLegal_of_one 3 _ fun d h => by cases h; exact ⟨⟨by decide, by decide, by decide, by decide⟩, by decide⟩⟩,
    step_tick stored (by decide +kernel)⟩

theorem witness_ReservationIsKept :
    ReservationKept (eightDown.withPending [.tick]) ∧ downCount (eightDown.withPending [.tick]) = 8 ∧
      ∃ t, step (eightDown.withPending [.tick]) = .next t :=
  ⟨⟨by decide +kernel, by decide +kernel, by decide +kernel⟩, by decide +kernel, step_tick eightDown (by decide +kernel)⟩

/-- The part with the view of section 4.8 in the fallback table. -/
def scrolling : State :=
  { running with views := running.views.setView .fallback 1 { record := ticker, verticalCount := 2, horizontalCount := 0 } }

theorem default_view_good : View.good { record := defaultViewRecord, verticalCount := 0, horizontalCount := 0 } :=
  ⟨by decide +kernel, rfl, rfl⟩

theorem witness_ViewsStayGood :
    ViewsGood (scrolling.withPending [.tick]) ∧ ∃ t, step (scrolling.withPending [.tick]) = .next t := by
  refine ⟨fun t i => ?_, step_tick scrolling (by decide +kernel)⟩
  cases t
  · match i with
    | 0 => exact default_view_good
    | 1 => exact default_view_good
    | 2 => exact default_view_good
    | 3 => exact default_view_good
  · match i with
    | 0 => exact default_view_good
    | 1 => exact ⟨by decide +kernel, by simp [countBelow, scrolling, ticker, Views.setView, State.withPending, Views.table], rfl⟩
    | 2 => exact default_view_good
    | 3 => exact default_view_good

/-- The part in Run with one Good request waiting. -/
def waiting : State := requesting 0x01 0x21 [] running

theorem waiting_linkGood : LinkGood waiting where
  queue :=
    { few := by decide
      noneExecuting := ⟨by decide, by decide⟩
      fillingLast := by decide
      replyingFirst := by decide
      replying := ⟨fun ⟨_, h⟩ => EngineState.noConfusion h, fun ⟨_, _, h, hs⟩ => by cases h; cases hs⟩
      collecting := by decide
      suspended := by decide }
  ring := by decide
  assembler := trivial
  answer := fun _ h => EngineState.noConfusion h
  settled := ⟨rfl, rfl⟩
  starting := fun h => PowerState.noConfusion h
  asleep := fun h => PowerState.noConfusion h
  rst := fun h => Bool.noConfusion h

theorem witness_LinkAndPowerStayTogether :
    (LinkGood (waiting.withPending [.tick]) ∧ ChainsAwake (waiting.withPending [.tick])) ∧
      ∃ t, step (waiting.withPending [.tick]) = .next t :=
  ⟨⟨{ waiting_linkGood with queue := { waiting_linkGood.queue with } }, fun h => absurd rfl h, fun _ h => EngineState.noConfusion h⟩,
    step_tick waiting (by decide +kernel)⟩

/-- The part with the alarm and the watch running. -/
def timing : State :=
  { running with time := { running.time with
      alarmMode := .periodic, alarmPeriod := 65535, alarmCount := 65535, watchPeriod := 64, watchCount := 6400 } }

theorem witness_RangesStayGood :
    (RangesGood (timing.withPending [.tick]) ∧ TimebaseGood (timing.withPending [.tick])) ∧
      ∃ t, step (timing.withPending [.tick]) = .next t :=
  ⟨⟨⟨by decide +kernel, by decide +kernel, by decide +kernel, by decide +kernel, by decide, by decide, by decide, by decide, by decide,
      by decide, by decide, by decide, by decide⟩, by decide, by decide, by decide, by decide, by decide⟩, step_tick timing (by decide +kernel)⟩

theorem witness_HeldSlotsBelongToTheirChain :
    HoldsGood ((chained running).withPending [.tick]) ∧ ∃ t, step ((chained running).withPending [.tick]) = .next t :=
  ⟨⟨chained_holdsGood.1.rec fun a b c d e => ⟨a, b, c, d, e⟩, chained_holdsGood.2, chained_holdsGood.3⟩,
    step_tick _ (by decide +kernel)⟩

theorem witness_PowerStateChangesOnlyByItsTransitions :
    Instr.powerOnReset.wellFormed = true ∧ LinkGood waiting ∧ exec .powerOnReset waiting = .next (after .powerOnReset waiting) ∧
      (after .powerOnReset waiting).power.state ≠ waiting.power.state :=
  ⟨rfl, waiting_linkGood, next_after (by decide +kernel), by decide +kernel⟩

/-- A command that is well formed, is no reset and goes on. -/
def ordinary (c : Instr) (s : State) : Bool := c.wellFormed && goesOn c s && !resetCommand c

theorem witness_PictureStoresHaveTheirWriters :
    let write := requesting 0x1D 0x21 [1, 7, 0xFF] running
    let mark : State := { chained running with frames := { running.frames with counter := 0 } }
    (ordinary .writeAtCursor write = true ∧ (after .writeAtCursor write).canvas.pixels ≠ write.canvas.pixels ∧
      (after .writeAtCursor write).canvas.attributes ≠ write.canvas.attributes ∧
      (after .writeAtCursor write).canvas.cursor ≠ write.canvas.cursor) ∧
    (ordinary (.frameBoundary false) mark = true ∧ (after (.frameBoundary false) mark).frames.counter ≠ mark.frames.counter ∧
      (after (.frameBoundary false) mark).chains.lastMark ≠ mark.chains.lastMark) ∧
    (requested .setCursor 0x1C [0, 0, 1] running).canvas.step ≠ running.canvas.step ∧
    (requested .stage 0x28 [0, 0, 1] running).staging ≠ running.staging ∧
    (requested .selectViews 0x23 [1] running).views.source ≠ running.views.source ∧
    (requested .setBackdrop 0x22 [1] running).views.backdrop ≠ running.views.backdrop ∧
    (requested .configurePanel 0x10 [32, 16, 40] running).panel.rows ≠ running.panel.rows ∧
    (requested .setContrast 0x12 [31] running).panel.contrast ≠ running.panel.contrast ∧
    (requested .setDisplayMode 0x11 [3] running).panel.mode ≠ running.panel.mode ∧
    (requested .setBlink 0x13 [2] running).frames.blinkPeriod ≠ running.frames.blinkPeriod ∧
    (after (.frameBoundary false) mark).frames.blinkCount ≠ mark.frames.blinkCount ∧
    (after (.frameBoundary false) scrolling).views.fallback ≠ scrolling.views.fallback ∧
    ((after (.frameBoundary false) mark).chains.pool[5] = .free ∧ mark.chains.pool[5] ≠ .free) ∧
    (requested .cancelChain 0x2C [9] mark).chains.pool[5].isLoaded = true ∧
    (requested .freeDescriptor 0x2A [4] pair).chains.pool[4] = .free ∧
    (after .submitChain (requesting 0x2B 0x21 [4, 0, 0, 0, 0] pair)).chains.lastHandle ≠ pair.chains.lastHandle := by decide +kernel

theorem witness_LinkAndKeyStoresHaveTheirWriters :
    (ordinary .linkDataRead (ringing .run) = true ∧ (after .linkDataRead (ringing .run)).link.ring ≠ (ringing .run).link.ring) ∧
    (ordinary .linkDataRead running = true ∧ (after .linkDataRead running).link.underrun ≠ running.link.underrun) ∧
    (after (.linkDataWrite 1) (holding 7 running)).counters.overrun ≠ 0 ∧ (after .byteTaken (holding 64 running)).counters.framing ≠ 0 ∧
    (after .byteTaken (ending 0 false 1)).counters.reject ≠ 0 ∧ (after (.frameBoundary true) running).counters.lateFrame ≠ 0 ∧
    (let s := touching (BitVec.twoPow 64 6) (passing (keyIn 6 (.settlingDown 2) running))
    ordinary (.scanPass 0) s = true ∧
      (after (.scanPass 0) { s with keys := { s.keys with events := List.replicate 24 { kind := .press, key := 1, time := 0 } } }).counters.lostKey ≠ 0) ∧
    ((after .tick allEnding).time.link = .lost ∧ allEnding.time.link = .live) ∧
    (let s := ending 0xFB false 1
    (after .byteTaken { s with time := { s.time with link := .lost } }).time.link = .live) ∧
    (requested .setAlarm 0x39 [0, 0, 0, 1] running).time.alarmWake ≠ running.time.alarmWake ∧
    (requested .setKey 0x31 [0, 0] running).scanner.table ≠ running.scanner.table ∧
    (requested .configureScan 0x30 [1, 1, 2, 1, 10, 2] running).scanner.config ≠ running.scanner.config ∧
    (after (.noticeMask 4 2) running).notices.mask ≠ running.notices.mask ∧ (after .tick running).time.ticks ≠ running.time.ticks ∧
    (requested .setAlarm 0x39 [2, 0xFF, 0xFF, 1] running).time.alarmPeriod ≠ running.time.alarmPeriod ∧
    (requested .setLinkWatch 0x3A [64, 2] running).time.watchPeriod ≠ running.time.watchPeriod ∧
    (after .posting (replying [1] .warmReset running)).power.cause ≠ running.power.cause := by decide +kernel

theorem witness_RecordsReadBackAsWritten : copyAll.action.legal ∧ ticker.legal = true :=
  ⟨⟨⟨by decide, by decide, by decide, by decide⟩, by decide⟩, by decide +kernel⟩

end Sys2Proof.Tests
end

section
/-! PROOFS. What one step does, by the queue of waiting commands (R1); stated once, so that no later proof unfolds `step`. -/

namespace Sys2Proof.Machine

variable {s : State}

theorem step_of_pending_nil (h : s.pending = []) : step s = .next s := by
  simp only [step, h]

theorem step_of_pending_cons {c : Instr} {rest : List Instr} (h : s.pending = c :: rest) :
    step s = exec c (s.withPending rest) := by
  simp only [step, h]

end Sys2Proof.Machine

namespace Sys2Proof.Proofs

open Sys2Proof.Machine

/-- Settles O19: the two cases of the queue, each by its rule for `step`. -/
theorem stepTakesFrontCommand : Obligations.StepTakesFrontCommand := by
  intro c rest s
  constructor
  · exact step_of_pending_cons
  · exact step_of_pending_nil

end Sys2Proof.Proofs
end

section
/-! PROOFS. The state after a command as a function, and the body of each request, so that a claim about every command is made about these. -/

namespace Sys2Proof.Machine

/-- The checks and the effect of the request that a command executes. -/
def requestBody : Instr → List Byte → State → Verdict
  | .identify => identifyBody
  | .echo => echoBody
  | .getStatus => getStatusBody
  | .clearCounters => clearCountersBody
  | .restart => restartBody
  | .configurePanel => configurePanelBody
  | .setDisplayMode => setDisplayModeBody
  | .setContrast => setContrastBody
  | .setBlink => setBlinkBody
  | .writeCanvas => writeCanvasBody
  | .readCanvas => readCanvasBody
  | .writeAttributes => writeAttributesBody
  | .readAttributes => readAttributesBody
  | .setCursor => setCursorBody
  | .writeAtCursor => writeAtCursorBody
  | .clearCanvas => clearCanvasBody
  | .setView => setViewBody
  | .getView => getViewBody
  | .setBackdrop => setBackdropBody
  | .selectViews => selectViewsBody
  | .stage => stageBody
  | .loadDescriptor => loadDescriptorBody
  | .freeDescriptor => freeDescriptorBody
  | .readDescriptor => readDescriptorBody
  | .submitChain => submitChainBody
  | .cancelChain => cancelChainBody
  | .chainStatus => chainStatusBody
  | .configureScan => configureScanBody
  | .setKey => setKeyBody
  | .takeKeys => takeKeysBody
  | .flushKeys => flushKeysBody
  | .getKeyStates => getKeyStatesBody
  | .readTime => readTimeBody
  | .setAlarm => setAlarmBody
  | .setLinkWatch => setLinkWatchBody
  | .enterDoze => enterDozeBody
  | .enterSleep => enterSleepBody
  | .wake => wakeBody
  | _ => unknownKindBody

/-- R30: a request of the catalogue is executed by its body. -/
theorem exec_of_requestCode {c : Instr} {kind : Byte} (h : requestCode c = some kind) (s : State) :
    exec c s = .next (executeKind kind (requestBody c) s) := by
  cases c <;> cases h <;> rfl

/-- R1: the state after a command. -/
def effect (c : Instr) (s : State) : State :=
  match c with
  | .linkDataWrite value => portWrite 0 value s
  | .linkDataRead => readLinkData s
  | .linkStatusRead => readLinkStatus s
  | .resync value => portWrite 1 value s
  | .fullReset value => portWrite 1 value s
  | .noticeAcknowledge address value => portWrite address value s
  | .noticeMask address value => portWrite address value s
  | .ignoredPortWrite address value => portWrite address value s
  | .byteTaken => takingStep s
  | .gapTimeout => if gapTimeoutDue s then tickStep s else s
  | .huntingEnd => if huntingEndDue s then tickStep s else s
  | .posting => postingStep s
  | .sleepEntry => enterSleepIfReady s
  | .unknownKindRequest => execute unknownKind unknownKindBody s
  | .frameBoundary waited => if boundaryDue s then boundary (countWait waited s) else s
  | .resumingBoundary => if resumingDue s then boundary s else s
  | .rowScanOut => match dueRow s with
    | some r => scanRow r s
    | none => s
  | .tick => tickStep s
  | .scanPass longGhosts => scanPassStep longGhosts s
  | .repeatEvent longGhosts => if repeatRunsOut longGhosts s then scanPassStep longGhosts s else s
  | .alarmExpiry => if alarmExpiryDue s then tickStep s else s
  | .linkWatchExpiry => if watchExpiryDue s then tickStep s else s
  | .wakeStep => if wakeStepDue s then closeStep (returnToRun (resumeEngine s)) else s
  | .endOfStarting => if startingEnds s then returnToRun s else s
  | .powerOnReset => resetPart .powerOn s
  | .rstPinReset low => rstChanges low s
  | .watchedLineChange key closed => contactChanges key closed s
  | request => match requestCode request with
    | some kind => executeKind kind (requestBody request) s
    | none => s

/-- Every command answers a next state. -/
theorem exec_eq_effect (c : Instr) (s : State) : exec c s = .next (effect c s) := by
  cases c <;> rfl

theorem effect_of_requestCode {c : Instr} {kind : Byte} (h : requestCode c = some kind) (s : State) :
    effect c s = executeKind kind (requestBody c) s :=
  Host.Outcome.next.inj ((exec_eq_effect c s).symm.trans (exec_of_requestCode h s))

end Sys2Proof.Machine
end

section
/-! PROOFS. What the body of a request can do (R36, R37): a failure leaves the state alone, and each effect is made in the blocks that the request
names. -/

namespace Sys2Proof.Machine

/-! ## What no key event touches -/

/-- The state with all of the scanner blanked but its configuration and the key table, and the key event queue blanked. -/
def beyondKeys (s : State) : State :=
  { s with scanner := { defaultScanner with config := s.scanner.config, table := s.scanner.table }, keys := defaultKeyQueue }

section
variable (k : Fin 64) (s : State)

theorem beyondKeys_setKeyState (st : KeyState) : beyondKeys (setKeyState k st s) = beyondKeys s := rfl

theorem beyondKeys_releaseReported (kind : EventKind) (time : Word) :
    beyondKeys (releaseReported kind k time s) = beyondKeys s := rfl

theorem beyondKeys_clearOwnerIf : beyondKeys (clearOwnerIf k s) = beyondKeys s := by
  unfold clearOwnerIf
  split <;> rfl

theorem beyondKeys_endRollover : beyondKeys (endRollover s) = beyondKeys s := by
  unfold endRollover
  split <;> rfl

end

/-! ## The bounds of the results -/

@[simp] theorem wordBytes_length (w : Word) : (wordBytes w).length = 2 := rfl

@[simp] theorem viewRecordBytes_length (v : ViewRecord) : (viewRecordBytes v).length = 15 := rfl

@[simp] theorem keySetBytes_length (k : KeySet) : (keySetBytes k).length = 8 := by
  simp [keySetBytes]

@[simp] theorem eventBytes_length (e : KeyEvent) : (eventBytes e).length = 4 := rfl

@[simp] theorem pendingChainBytes_length (c : PendingChain) : (pendingChainBytes c).length = 6 := rfl

@[simp] theorem chainOutcomeBytes_length (o : ChainOutcome) : (chainOutcomeBytes o).length = 3 := rfl

/-- R122: padded records fill their places, whatever their number. -/
theorem padRecords_length (n width : Nat) (records : List (List Byte)) (h : ∀ r ∈ records, r.length = width) :
    (padRecords n width records).length = n * width := by
  have place : ∀ i, (records.getD i (List.replicate width 0)).length = width := by
    intro i
    rw [List.getD_eq_getElem?_getD]
    cases e : records[i]? with
    | none => simp
    | some r => exact h r (List.mem_of_getElem? e)
  simp only [padRecords, List.length_flatMap, place]
  simp

/-- R104: the bytes of a descriptor. -/
theorem descriptorBytes_length (d : Descriptor) : (descriptorBytes d).length = 11 := by
  obtain ⟨action, next, release⟩ := d
  cases action <;> rfl

/-- R104: the result bytes of READ DESCRIPTOR. -/
theorem poolSlotBytes_length (x : PoolSlot) : (poolSlotBytes x).length = 13 := by
  cases x <;> simp [poolSlotBytes, descriptorBytes_length]

/-- R122: the result bytes of CHAIN STATUS. -/
theorem chainStatusBytes_length (s : State) : (chainStatusBytes s).length = 44 := by
  have hp := padRecords_length 4 6 (s.chains.queue.map pendingChainBytes) (by simp)
  have ho := padRecords_length 4 3 (s.chains.outcomes.map chainOutcomeBytes) (by simp)
  simp [chainStatusBytes, hp, ho]

/-! ## What an effect leaves -/

/-- What the effect of a request leaves as it was, but for the stores that the request names (R37): the link, the queue and the pins, the tick
and the frame counter, the snapshot, the mask, the reset cause and the link state. WAKE alone changes the power state (R176). -/
structure RequestKeeps (c : Instr) (s t : State) : Prop where
  link : t.link = s.link
  requests : t.requests = s.requests
  pins : t.pins = s.pins
  pending : t.pending = s.pending
  ticks : t.time.ticks = s.time.ticks
  linkState : t.time.link = s.time.link
  frameCounter : t.frames.counter = s.frames.counter
  snapshot : t.panel.snapshot = s.panel.snapshot
  mask : t.notices.mask = s.notices.mask
  cause : t.power.cause = s.power.cause
  power : t.power.state = s.power.state ∨ (s.power.state = .doze ∧ t.power.state = .run)
  queue : t.chains.queue ≠ [] → s.chains.queue ≠ [] ∨ s.power.state ≠ .doze
  counters : c ≠ .clearCounters → t.counters = s.counters
  table : c ≠ .setKey → t.scanner.table = s.scanner.table
  config : c ≠ .configureScan → t.scanner.config = s.scanner.config
  alarm : c ≠ .setAlarm → t.time.alarmPeriod = s.time.alarmPeriod ∧ t.time.alarmMode = s.time.alarmMode ∧
    t.time.alarmWake = s.time.alarmWake
  watch : c ≠ .setLinkWatch → t.time.watchPeriod = s.time.watchPeriod ∧ t.time.watchAction = s.time.watchAction

namespace RequestKeeps

variable {c : Instr} {s : State}

/-- An effect on the canvas, the views, the panel, the frames, the staging memory, the chains and the key event queue. -/
theorem of_picture (canvas : Canvas) (views : Views) (panel : Panel) (frames : Frames) (staging : Memory) (chains : Chains)
    (keys : KeyQueue) (hs : panel.snapshot = s.panel.snapshot) (hf : frames.counter = s.frames.counter)
    (hq : chains.queue ≠ [] → s.chains.queue ≠ [] ∨ s.power.state ≠ .doze) :
    RequestKeeps c s
      { s with canvas := canvas, views := views, panel := panel, frames := frames, staging := staging, chains := chains, keys := keys } where
  link := rfl
  requests := rfl
  pins := rfl
  pending := rfl
  ticks := rfl
  linkState := rfl
  frameCounter := hf
  snapshot := hs
  mask := rfl
  cause := rfl
  power := .inl rfl
  queue := hq
  counters := fun _ => rfl
  table := fun _ => rfl
  config := fun _ => rfl
  alarm := fun _ => ⟨rfl, rfl, rfl⟩
  watch := fun _ => ⟨rfl, rfl⟩

/-- No effect at all. -/
theorem refl : RequestKeeps c s s := of_picture _ _ _ _ _ _ _ rfl rfl .inl

theorem of_canvas (canvas : Canvas) : RequestKeeps c s { s with canvas := canvas } := of_picture canvas _ _ _ _ _ _ rfl rfl .inl
theorem of_views (views : Views) : RequestKeeps c s { s with views := views } := of_picture _ views _ _ _ _ _ rfl rfl .inl
theorem of_staging (m : Memory) : RequestKeeps c s { s with staging := m } := of_picture _ _ _ _ m _ _ rfl rfl .inl
theorem of_keys (keys : KeyQueue) : RequestKeeps c s { s with keys := keys } := of_picture _ _ _ _ _ _ keys rfl rfl .inl

theorem of_panel (panel : Panel) (h : panel.snapshot = s.panel.snapshot) : RequestKeeps c s { s with panel := panel } :=
  of_picture _ _ panel _ _ _ _ h rfl .inl

theorem of_chains (chains : Chains) (h : chains.queue ≠ [] → s.chains.queue ≠ [] ∨ s.power.state ≠ .doze) :
    RequestKeeps c s { s with chains := chains } := of_picture _ _ _ _ _ chains _ rfl rfl h

end RequestKeeps

/-! ## What a verdict can be -/

/-- R36, R37: a failure is none of DONE and UNKNOWN_KIND and carries result bytes only with INVALID_CHAIN; an effect keeps what it must; and
only where no chain is pending and the part is not in Doze does a posting leave Run (R175, R177). -/
def Verdict.keeps (c : Instr) (s : State) : Verdict → Prop
  | .fail code result => code ≠ .done ∧ code ≠ .unknownKind ∧ (code ≠ .invalidChain → result = []) ∧ result.length ≤ 58
  | .done after result effect => RequestKeeps c s after ∧ result.length ≤ 58 ∧
      (effect = .enterDoze ∨ effect = .enterSleep → s.power.state ≠ .doze ∧ after.chains.queue = [])

section
variable {c : Instr} {s : State}

theorem keeps_badSize : (Verdict.fail .badSize []).keeps c s := by simp [Verdict.keeps]
theorem keeps_outOfRange : (Verdict.fail .outOfRange []).keeps c s := by simp [Verdict.keeps]
theorem keeps_busy : (Verdict.fail .busy []).keeps c s := by simp [Verdict.keeps]
theorem keeps_locked : (Verdict.fail .locked []).keeps c s := by simp [Verdict.keeps]
theorem keeps_wrongState : (Verdict.fail .wrongState []).keeps c s := by simp [Verdict.keeps]
theorem keeps_noRoom : (Verdict.fail .noRoom []).keeps c s := by simp [Verdict.keeps]
theorem keeps_unknownHandle : (Verdict.fail .unknownHandle []).keeps c s := by simp [Verdict.keeps]

theorem keeps_invalidChain (a b d : Byte) : (Verdict.fail .invalidChain [a, b, d]).keeps c s := by simp [Verdict.keeps]

theorem keeps_doneReading {t : State} {result : List Byte} (h : RequestKeeps c s t) (hl : result.length ≤ 58) :
    (doneReading t result).keeps c s :=
  ⟨h, hl, by simp⟩

theorem keeps_doneWith {t : State} (h : RequestKeeps c s t) : (doneWith t).keeps c s := keeps_doneReading h (Nat.zero_le _)

/-- A verdict that a test decides. -/
theorem keeps_ite {p : Prop} [Decidable p] {v w : Verdict} (hv : p → v.keeps c s) (hw : ¬ p → w.keeps c s) :
    (if p then v else w).keeps c s := by
  split
  · exact hv ‹_›
  · exact hw ‹_›

/-- R36, stage 2: the check of the size stands first. -/
theorem keeps_sized {p : Prop} [Decidable p] {v : Verdict} (h : ¬ p → v.keeps c s) :
    (if p then .fail .badSize [] else v : Verdict).keeps c s :=
  keeps_ite (fun _ => keeps_badSize) h

/-- R36, stage 3: a check of a range where one decides alone. -/
theorem keeps_ranged {p : Prop} [Decidable p] {v : Verdict} (h : p → v.keeps c s) :
    (if p then v else .fail .outOfRange [] : Verdict).keeps c s :=
  keeps_ite h fun _ => keeps_outOfRange

end

/-! ## The general requests -/

section
variable (c : Instr) (payload : List Byte) (s : State)

/-- A request that returns bytes and has no effect. -/
theorem reading_keeps {p : Prop} [Decidable p] (result : List Byte) (h : ¬ p → result.length ≤ 58) :
    (if p then .fail .badSize [] else doneReading s result : Verdict).keeps c s :=
  keeps_sized fun hp => keeps_doneReading .refl (h hp)

theorem identifyBody_keeps : (identifyBody payload s).keeps c s := reading_keeps c s identity fun _ => by decide

theorem echoBody_keeps : (echoBody payload s).keeps c s := reading_keeps c s payload fun h => by omega

theorem getStatusBody_keeps : (getStatusBody payload s).keeps c s :=
  reading_keeps c s (statusBytes s) fun _ => by simp [statusBytes, counterBytes]

theorem clearCountersBody_keeps : (clearCountersBody payload s).keeps .clearCounters s :=
  keeps_sized fun _ => keeps_doneReading
    { RequestKeeps.refl (c := .clearCounters) (s := s) with counters := fun h => absurd rfl h } (by simp [counterBytes])

theorem restartBody_keeps : (restartBody payload s).keeps c s :=
  keeps_sized fun _ => ⟨.refl, by simp, by simp⟩

theorem enterDozeBody_keeps : (enterDozeBody payload s).keeps c s :=
  keeps_sized fun _ => keeps_ite (fun _ => keeps_doneWith .refl) fun hp => keeps_ite (fun _ => keeps_busy) fun hq =>
    ⟨.refl, by simp, fun _ => ⟨hp, by simpa using hq⟩⟩

theorem enterSleepBody_keeps : (enterSleepBody payload s).keeps c s :=
  keeps_sized fun _ => keeps_ite (fun _ => keeps_wrongState) fun hp => keeps_ite (fun _ => keeps_busy) fun hq =>
    ⟨.refl, by simp, fun _ => ⟨hp, by simpa using hq⟩⟩

/-- R176, R180: what WAKE in Doze leaves as it was. -/
theorem returnToRun_keeps (h : s.power.state = .doze) : RequestKeeps c s (returnToRun s) := by
  have hn : ¬ (s.power.state = .sleep ∧ s.time.watchPeriod ≠ 0 ∧ s.time.link = .live) := by simp [h]
  rw [returnToRun_eq, if_neg hn]
  exact { RequestKeeps.refl (c := c) (s := s) with power := .inr ⟨h, rfl⟩ }

theorem wakeBody_keeps : (wakeBody payload s).keeps c s :=
  keeps_sized fun _ => keeps_ite (fun h => keeps_doneWith (returnToRun_keeps c s h)) fun _ => keeps_doneWith .refl

/-! ## The canvas requests -/

theorem writeCanvasBody_keeps : (writeCanvasBody payload s).keeps c s := by
  refine keeps_sized fun _ => ?_
  split
  · exact keeps_ranged fun _ => keeps_doneWith (.of_canvas _)
  · exact keeps_outOfRange

/-- R51, R53: a read run is no longer than the request lets it be. -/
theorem readRunOf_length {most : Nat} {start n : Nat} (h : readRunOf most payload = some (start, n)) : n ≤ most := by
  unfold readRunOf at h
  split at h
  · cases h
  · dsimp only at h
    split at h
    next hc =>
      cases h
      simp only [inRange, Bool.and_eq_true, decide_eq_true_eq] at hc
      exact hc.1.2
    next => cases h

theorem readCanvasBody_keeps : (readCanvasBody payload s).keeps c s := by
  refine keeps_sized fun _ => ?_
  split
  next start n h =>
    have hn := readRunOf_length payload h
    exact keeps_doneReading .refl (by rw [memReadRun_length]; omega)
  next => exact keeps_outOfRange

theorem writeAttributesBody_keeps : (writeAttributesBody payload s).keeps c s := by
  refine keeps_sized fun _ => ?_
  split
  · exact keeps_ranged fun _ => keeps_doneWith (.of_canvas _)
  · exact keeps_outOfRange

theorem readAttributesBody_keeps : (readAttributesBody payload s).keeps c s := by
  refine keeps_sized fun _ => ?_
  split
  next start n h =>
    have hn := readRunOf_length payload h
    exact keeps_doneReading .refl (by rw [List.length_map, memReadRun_length]; omega)
  next => exact keeps_outOfRange

theorem clearCanvasBody_keeps : (clearCanvasBody payload s).keeps c s :=
  keeps_sized fun _ => keeps_ranged fun _ => keeps_doneWith (.of_canvas _)

theorem setCursorBody_keeps : (setCursorBody payload s).keeps c s := by
  refine keeps_sized fun _ => keeps_ite (fun _ => keeps_outOfRange) fun _ => ?_
  split
  · exact keeps_doneWith (.of_canvas _)
  · exact keeps_outOfRange

theorem writeAtCursorBody_keeps : (writeAtCursorBody payload s).keeps c s := by
  refine keeps_sized fun _ => ?_
  split
  · exact keeps_doneReading (.of_canvas _) (by simp)
  · exact keeps_outOfRange

/-! ## The view and the panel requests -/

theorem setViewBody_keeps : (setViewBody payload s).keeps c s := by
  refine keeps_sized fun _ => ?_
  split
  · exact keeps_ranged fun _ => keeps_doneWith (.of_views _)
  · exact keeps_outOfRange

theorem getViewBody_keeps : (getViewBody payload s).keeps c s := by
  refine keeps_sized fun _ => ?_
  split
  · exact keeps_doneReading .refl (by simp [viewBytes])
  · exact keeps_outOfRange

theorem setBackdropBody_keeps : (setBackdropBody payload s).keeps c s :=
  keeps_sized fun _ => keeps_ranged fun _ => keeps_doneWith (.of_views _)

theorem selectViewsBody_keeps : (selectViewsBody payload s).keeps c s := by
  refine keeps_sized fun _ => ?_
  split
  · exact keeps_doneWith (.of_views _)
  · exact keeps_outOfRange

theorem configurePanelBody_keeps : (configurePanelBody payload s).keeps c s :=
  keeps_sized fun _ => keeps_ite (fun _ => keeps_outOfRange) fun _ => keeps_ite (fun _ => keeps_wrongState) fun _ =>
    keeps_doneWith (.of_panel _ rfl)

theorem setDisplayModeBody_keeps : (setDisplayModeBody payload s).keeps c s := by
  refine keeps_sized fun _ => ?_
  split
  · exact keeps_doneWith (.of_panel _ rfl)
  · exact keeps_outOfRange

theorem setContrastBody_keeps : (setContrastBody payload s).keeps c s :=
  keeps_sized fun _ => keeps_ranged fun _ => keeps_doneWith (.of_panel _ rfl)

theorem setBlinkBody_keeps : (setBlinkBody payload s).keeps c s :=
  keeps_sized fun _ => keeps_ranged fun _ => keeps_doneWith (.of_picture _ _ _ _ _ _ _ rfl rfl .inl)

/-! ## The chain requests -/

theorem stageBody_keeps : (stageBody payload s).keeps c s :=
  keeps_sized fun _ => keeps_ite (fun _ => keeps_outOfRange) fun _ => keeps_ite (fun _ => keeps_locked) fun _ =>
    keeps_doneWith (.of_staging _)

theorem loadDescriptorBody_keeps : (loadDescriptorBody payload s).keeps c s := by
  refine keeps_sized fun _ => ?_
  split
  · exact keeps_ite (fun _ => keeps_busy) fun _ => keeps_doneWith (.of_chains _ .inl)
  · exact keeps_outOfRange

theorem freeDescriptorBody_keeps : (freeDescriptorBody payload s).keeps c s := by
  refine keeps_sized fun _ => ?_
  split
  · exact keeps_ite (fun _ => keeps_busy) fun _ => keeps_doneWith (.of_chains _ .inl)
  · exact keeps_outOfRange

theorem readDescriptorBody_keeps : (readDescriptorBody payload s).keeps c s := by
  refine keeps_sized fun _ => ?_
  split
  · exact keeps_doneReading .refl (by rw [poolSlotBytes_length]; omega)
  · exact keeps_outOfRange

/-- R113: a chain is queued in Run only. -/
theorem submitSound_keeps (head : Fin 32) (due : Word) (urgent : Bool) : (submitSound head due urgent s).keeps c s := by
  refine keeps_ite (fun _ => keeps_wrongState) fun hp => keeps_ite (fun _ => keeps_noRoom) fun _ => ?_
  split
  · exact keeps_invalidChain _ _ _
  · exact keeps_doneReading (.of_chains _ fun _ => .inr hp) (by simp)

theorem submitChainBody_keeps : (submitChainBody payload s).keeps c s := by
  refine keeps_sized fun _ => ?_
  split
  · exact submitSound_keeps c s _ _ _
  · exact keeps_outOfRange

theorem cancelChainBody_keeps : (cancelChainBody payload s).keeps c s := by
  refine keeps_sized fun _ => keeps_ite (fun _ => keeps_outOfRange) fun _ => ?_
  split
  next chain _ =>
    refine keeps_doneReading (.of_chains _ fun hq => .inl fun hs => hq ?_) (by simp)
    show s.chains.queue.erase chain = []
    rw [hs]
    rfl
  next => exact keeps_unknownHandle

theorem chainStatusBody_keeps : (chainStatusBody payload s).keeps c s :=
  reading_keeps c s _ fun _ => by rw [chainStatusBytes_length]; omega

/-! ## The key and the timebase requests -/

theorem configureScan_eq (config : ScanConfig) :
    ∃ armed, configureScan config s =
      { s with
        keys := { s.keys with events := s.keys.events ++ forcedReleases s }
        scanner := { s.scanner with
          config := config, raw := 0, passTimer := config.period, armed := armed
          states := Vector.replicate 64 .idle, ghost := false, rollover := false, owner := none, repeatTimer := none } } := by
  unfold configureScan
  rw [forcedRelease_eq]
  dsimp only
  split
  · exact ⟨_, rfl⟩
  · exact ⟨_, rfl⟩

theorem configureScanBody_keeps : (configureScanBody payload s).keeps .configureScan s := by
  refine keeps_sized fun _ => ?_
  split
  next config _ =>
    obtain ⟨armed, h⟩ := configureScan_eq s config
    rw [h]
    exact keeps_doneWith { RequestKeeps.refl (c := .configureScan) (s := s) with config := fun h => absurd rfl h }
  next => exact keeps_outOfRange

/-- R127: SET KEY leaves what no key event touches as the change of the key's record leaves it. -/
theorem beyondKeys_setKey (k : Fin 64) (r : KeyRecord) : beyondKeys (setKey k r s) = beyondKeys (setKeyRecord k r s) := by
  have stop : ∀ t : State, beyondKeys (stopRepeatIf k r t) = beyondKeys t := by
    intro t
    unfold stopRepeatIf
    split <;> rfl
  have disable : ∀ t : State, beyondKeys (disableKey k t) = beyondKeys t := by
    intro t
    unfold disableKey
    split
    · rw [beyondKeys_endRollover, beyondKeys_clearOwnerIf, beyondKeys_releaseReported]
    · exact beyondKeys_setKeyState ..
  have change : ∀ before after (t : State), beyondKeys (changeEnabled k before after t) = beyondKeys t := by
    intro before after t
    unfold changeEnabled
    split
    · rfl
    · exact disable t
    · exact beyondKeys_setKeyState ..
    · rfl
  rw [setKey, stop, change]

/-- An effect that leaves what no key event touches. -/
theorem RequestKeeps.of_beyondKeys {c : Instr} {s t : State} (h : beyondKeys t = beyondKeys s) : RequestKeeps c s t where
  link := congrArg (fun u => u.link) h
  requests := congrArg (fun u => u.requests) h
  pins := congrArg (fun u => u.pins) h
  pending := congrArg (fun u => u.pending) h
  ticks := congrArg (fun u => u.time.ticks) h
  linkState := congrArg (fun u => u.time.link) h
  frameCounter := congrArg (fun u => u.frames.counter) h
  snapshot := congrArg (fun u => u.panel.snapshot) h
  mask := congrArg (fun u => u.notices.mask) h
  cause := congrArg (fun u => u.power.cause) h
  power := .inl (congrArg (fun u => u.power.state) h)
  queue := fun hq => .inl (congrArg (fun u => u.chains.queue) h ▸ hq)
  counters := fun _ => congrArg (fun u => u.counters) h
  table := fun _ => congrArg (fun u => u.scanner.table) h
  config := fun _ => congrArg (fun u => u.scanner.config) h
  alarm := fun _ => have ht := congrArg State.time h
    ⟨congrArg Timebase.alarmPeriod ht, congrArg Timebase.alarmMode ht, congrArg Timebase.alarmWake ht⟩
  watch := fun _ => have ht := congrArg State.time h
    ⟨congrArg Timebase.watchPeriod ht, congrArg Timebase.watchAction ht⟩

theorem setKeyBody_keeps : (setKeyBody payload s).keeps .setKey s := by
  refine keeps_sized fun _ => ?_
  split
  next k _ =>
    have h := RequestKeeps.of_beyondKeys (c := .setKey) (beyondKeys_setKey s k (keyRecordOf (byteAt payload 1)))
    exact keeps_doneWith { h with table := fun hc => absurd rfl hc }
  next => exact keeps_outOfRange

theorem takeKeysBody_keeps : (takeKeysBody payload s).keeps c s := by
  refine keeps_sized fun _ => keeps_ranged fun h => keeps_doneReading (.of_keys _) ?_
  simp only [inRange, Bool.and_eq_true, decide_eq_true_eq] at h
  have hm : ∀ l : List KeyEvent, (l.flatMap eventBytes).length = 4 * l.length := by
    intro l
    simp [List.length_flatMap, Nat.mul_comm]
  rw [List.length_append, hm, List.length_take]
  simp only [List.length_cons, List.length_nil]
  omega

theorem flushKeysBody_keeps : (flushKeysBody payload s).keeps c s :=
  keeps_sized fun _ => keeps_doneReading (.of_keys _) (by simp)

theorem getKeyStatesBody_keeps : (getKeyStatesBody payload s).keeps c s :=
  reading_keeps c s _ fun _ => by simp [keyStateBytes]

theorem readTimeBody_keeps : (readTimeBody payload s).keeps c s :=
  reading_keeps c s _ fun _ => by simp [timeBytes]

/-- R166: SET ALARM changes the alarm alone. -/
theorem withAlarm_eq (mode : AlarmMode) (period : Word) (wakes : Bool) (t : Timebase) :
    ∃ count p, withAlarm mode period wakes t =
      { t with alarmMode := mode, alarmPeriod := p, alarmWake := wakes, alarmCount := count } := by
  cases mode with
  | off => exact ⟨0, 0, rfl⟩
  | oneShot => exact ⟨period, period, rfl⟩
  | periodic => exact ⟨period, period, rfl⟩

theorem setAlarmBody_keeps : (setAlarmBody payload s).keeps .setAlarm s := by
  refine keeps_sized fun _ => ?_
  split
  next => exact keeps_outOfRange
  next mode _ =>
    refine keeps_ite (fun _ => keeps_outOfRange) fun _ => keeps_doneWith ?_
    obtain ⟨count, period, h⟩ := withAlarm_eq mode (wordAt payload 1) ((byteAt payload 3).getLsbD 0) s.time
    rw [h]
    exact { RequestKeeps.refl (c := .setAlarm) (s := s) with alarm := fun h => absurd rfl h }

/-- R168: SET LINK WATCH changes the watch alone. -/
theorem setWatch_eq (period : Byte) (action : FallbackAction) :
    ∃ count, setWatch period action s =
      { s with time := { s.time with watchPeriod := period, watchAction := action, watchCount := count } } := by
  unfold setWatch
  rw [loadWatch_eq]
  dsimp only
  split
  · exact ⟨_, rfl⟩
  · exact ⟨_, rfl⟩

theorem setLinkWatchBody_keeps : (setLinkWatchBody payload s).keeps .setLinkWatch s := by
  refine keeps_sized fun _ => ?_
  split
  next action _ _ =>
    obtain ⟨count, h⟩ := setWatch_eq s (byteAt payload 0) action
    rw [h]
    exact keeps_doneWith { RequestKeeps.refl (c := .setLinkWatch) (s := s) with watch := fun h => absurd rfl h }
  next => exact keeps_outOfRange

end

/-- R36, R37: what every request of the catalogue can do. -/
theorem requestBody_keeps {c : Instr} {kind : Byte} (h : requestCode c = some kind) (payload : List Byte) (s : State) :
    (requestBody c payload s).keeps c s := by
  cases c with
  | identify => exact identifyBody_keeps _ payload s
  | echo => exact echoBody_keeps _ payload s
  | getStatus => exact getStatusBody_keeps _ payload s
  | clearCounters => exact clearCountersBody_keeps payload s
  | restart => exact restartBody_keeps _ payload s
  | configurePanel => exact configurePanelBody_keeps _ payload s
  | setDisplayMode => exact setDisplayModeBody_keeps _ payload s
  | setContrast => exact setContrastBody_keeps _ payload s
  | setBlink => exact setBlinkBody_keeps _ payload s
  | writeCanvas => exact writeCanvasBody_keeps _ payload s
  | readCanvas => exact readCanvasBody_keeps _ payload s
  | writeAttributes => exact writeAttributesBody_keeps _ payload s
  | readAttributes => exact readAttributesBody_keeps _ payload s
  | setCursor => exact setCursorBody_keeps _ payload s
  | writeAtCursor => exact writeAtCursorBody_keeps _ payload s
  | clearCanvas => exact clearCanvasBody_keeps _ payload s
  | setView => exact setViewBody_keeps _ payload s
  | getView => exact getViewBody_keeps _ payload s
  | setBackdrop => exact setBackdropBody_keeps _ payload s
  | selectViews => exact selectViewsBody_keeps _ payload s
  | stage => exact stageBody_keeps _ payload s
  | loadDescriptor => exact loadDescriptorBody_keeps _ payload s
  | freeDescriptor => exact freeDescriptorBody_keeps _ payload s
  | readDescriptor => exact readDescriptorBody_keeps _ payload s
  | submitChain => exact submitChainBody_keeps _ payload s
  | cancelChain => exact cancelChainBody_keeps _ payload s
  | chainStatus => exact chainStatusBody_keeps _ payload s
  | configureScan => exact configureScanBody_keeps payload s
  | setKey => exact setKeyBody_keeps payload s
  | takeKeys => exact takeKeysBody_keeps _ payload s
  | flushKeys => exact flushKeysBody_keeps _ payload s
  | getKeyStates => exact getKeyStatesBody_keeps _ payload s
  | readTime => exact readTimeBody_keeps _ payload s
  | setAlarm => exact setAlarmBody_keeps payload s
  | setLinkWatch => exact setLinkWatchBody_keeps payload s
  | enterDoze => exact enterDozeBody_keeps _ payload s
  | enterSleep => exact enterSleepBody_keeps _ payload s
  | wake => exact wakeBody_keeps _ payload s
  | _ => cases h

end Sys2Proof.Machine
end

section
/-! PROOFS. The port, the queue, the engine, the pending chains and the power state go on fitting together (R13 to R35, R123, R172, R177). -/

namespace Sys2Proof.Machine

/-! ## The invariant between two ends of a step -/

/-- All of LinkGood and ChainsAwake but that the state is settled, which the end of a step brings about. -/
structure Fitting (s : State) : Prop where
  queue : QueueGood s
  ring : s.link.ring.length ≤ Config.ringBytes
  assembler : s.link.assembler.good
  answer : ∀ a, s.requests.engine = .replying a → a.good s.power.state
  starting : s.power.state = .starting →
    s.link.holding = none ∧ s.link.ring = [] ∧ s.link.assembler = .awaitLength false ∧ s.requests.slots = []
  asleep : s.power.state = .sleep → s.link.ring = [] ∧ assemblerCode s.link.assembler = 0
  rst : s.pins.rstLow = true → s.power.state = .starting
  chains : ChainsAwake s

theorem linkGood_and_chainsAwake_iff (s : State) : LinkGood s ∧ ChainsAwake s ↔ Fitting s ∧ Settled s :=
  ⟨fun ⟨h, hc⟩ => ⟨⟨h.queue, h.ring, h.assembler, h.answer, h.starting, h.asleep, h.rst, hc⟩, h.settled⟩,
    fun ⟨h, hs⟩ => ⟨⟨h.queue, h.ring, h.assembler, h.answer, hs, h.starting, h.asleep, h.rst⟩, h.chains⟩⟩

/-- What the invariant reads of a state beside the pending chains. -/
def portView (s : State) : Option Byte × List Byte × Assembler × Requests × PowerState × Bool :=
  (s.link.holding, s.link.ring, s.link.assembler, s.requests, s.power.state, s.pins.rstLow)

/-- The invariant holds of every state that shows it the same, where no chain has become pending. -/
theorem Fitting.of_portView {s t : State} (h : Fitting s) (e : portView t = portView s)
    (hq : s.chains.queue = [] → t.chains.queue = []) : Fitting t := by
  simp only [portView, Prod.mk.injEq] at e
  obtain ⟨holding, ring, assembler, requests, power, rst⟩ := e
  obtain ⟨⟨few, noneExecuting, fillingLast, replyingFirst, replying, collecting, suspended⟩, hr, ha, hn, hs, hl, hp, hc⟩ := h
  rw [← requests] at few noneExecuting fillingLast replyingFirst replying
  rw [← assembler, ← requests] at collecting
  rw [← requests, ← power] at suspended
  exact
    { queue := ⟨few, noneExecuting, fillingLast, replyingFirst, replying, collecting, suspended⟩
      ring := ring ▸ hr
      assembler := assembler ▸ ha
      answer := by rw [requests, power]; exact hn
      starting := by rw [power, holding, ring, assembler, requests]; exact hs
      asleep := by rw [power, ring, assembler]; exact hl
      rst := by rw [rst, power]; exact hp
      chains :=
        ⟨by rw [power]; exact fun hne => hc.run fun he => hne (hq he),
          by rw [requests, power]; exact fun a ha hw => (hc.answer a ha hw).imp_left hq⟩ }

/-- What the invariant reads of a state. -/
def linkView (s : State) := (portView s, s.chains.queue)

theorem Fitting.of_linkView {s t : State} (h : Fitting s) (e : linkView t = linkView s) : Fitting t :=
  have e := Prod.mk.inj e
  h.of_portView e.1 e.2.trans

theorem settled_of_linkView {s t : State} (h : Settled s) (e : linkView t = linkView s) : Settled t := by
  simp only [linkView, portView, Prod.mk.injEq] at e
  obtain ⟨⟨holding, ring, assembler, requests, power, _⟩, _⟩ := e
  unfold Settled rejectionDue frontRejection sleepReady
  rw [holding, ring, assembler, requests, power]
  exact h

/-! ## Facts of the invariant -/

section
variable {s : State}

/-- R32, R177: a part in Run or in Doze is settled where no REJECT is due. -/
theorem settled_of_runs (hp : engineRuns s.power.state = true) (h : rejectionDue s = false) : Settled s := by
  refine ⟨h, ?_⟩
  rcases (engineRuns_iff _).1 hp with hp | hp <;> simp [sleepReady, hp]

/-- R32: no REJECT is due of an engine that is not Idle. -/
theorem rejectionDue_of_busy (h : s.requests.engine ≠ .idle) : rejectionDue s = false := by
  simp [rejectionDue, h]

/-- R32: no REJECT is due of an empty queue. -/
theorem rejectionDue_of_empty (h : s.requests.slots = []) : rejectionDue s = false := by
  simp [rejectionDue, frontRejection, h]

/-- R34: an engine that is not Suspended stands in no sleep. -/
theorem QueueGood.awake (h : QueueGood s) (he : s.requests.engine ≠ .suspended) :
    s.power.state ≠ .sleepPending ∧ s.power.state ≠ .sleep :=
  ⟨fun hp => he (h.suspended.2 (.inl hp)), fun hp => he (h.suspended.2 (.inr hp))⟩

/-- R13, R28: outside Collecting no slot is Filling. -/
theorem QueueGood.not_filling (h : QueueGood s) (ha : assemblerCode s.link.assembler ≠ 1) :
    ∀ slot ∈ s.requests.slots, slot.stage ≠ .filling :=
  fun slot hm hf => ha (h.collecting.2 ⟨slot, hm, hf⟩)

/-- R13, R28: in Collecting the Filling slot stands behind all others. -/
theorem QueueGood.filling_last (h : QueueGood s) (ha : assemblerCode s.link.assembler = 1) :
    ∃ front stored, s.requests.slots = front ++ [{ stage := .filling, stored := stored }] ∧
      ∀ slot ∈ front, slot.stage ≠ .filling := by
  obtain ⟨slot, hm, hf⟩ := h.collecting.1 ha
  have hne : s.requests.slots ≠ [] := List.ne_nil_of_mem hm
  have hsplit := List.dropLast_append_getLast hne
  rw [← hsplit, List.mem_append, List.mem_singleton] at hm
  have hlast : slot = s.requests.slots.getLast hne := hm.resolve_left fun hm => h.fillingLast slot hm hf
  obtain ⟨stage, stored⟩ := slot
  cases hf
  exact ⟨s.requests.slots.dropLast, stored, by rw [hlast, hsplit], h.fillingLast⟩

/-- R28, R30: an engine that is not Replying stands before no Replying slot. -/
theorem QueueGood.not_replying (h : QueueGood s) (he : ∀ a, s.requests.engine ≠ .replying a) :
    ∀ slot ∈ s.requests.slots, slot.stage ≠ .replying := by
  intro slot hm hr
  cases hs : s.requests.slots with
  | nil => rw [hs] at hm; cases hm
  | cons front rest =>
    have hfirst := h.replyingFirst
    rw [hs] at hm hfirst
    rcases List.mem_cons.1 hm with rfl | hm
    · obtain ⟨a, ha⟩ := h.replying.2 ⟨slot, rest, hs, hr⟩
      exact he a ha
    · exact hfirst slot hm hr

/-- A queue without a Replying slot beside an engine that is not Replying. -/
theorem replying_iff_of_none {q : Requests} (he : ∀ a, q.engine ≠ .replying a) (h : ∀ slot ∈ q.slots, slot.stage ≠ .replying) :
    (∃ a, q.engine = .replying a) ↔ ∃ front rest, q.slots = front :: rest ∧ front.stage = .replying :=
  ⟨fun ⟨a, ha⟩ => absurd ha (he a), fun ⟨front, rest, hs, hr⟩ => absurd hr (h front (by simp [hs]))⟩

end

/-! ## Parcels that the part sends (R10, R12) -/

/-- R10: the check sum of a list of bytes with one more. -/
theorem byteSum_append_singleton (bytes : List Byte) (b : Byte) : byteSum (bytes ++ [b]) = byteSum bytes + b := by
  simp [byteSum]

/-- R10: the check sum of a sent parcel. -/
theorem byteSum_parcel (kind tag : Byte) (payload : List Byte) : byteSum (parcel kind tag payload) = 0 := by
  rw [parcel, byteSum_append_singleton]
  exact add_sub_cancel _ _

/-- R10: the bytes of a sent parcel. -/
theorem parcel_length (kind tag : Byte) (payload : List Byte) : (parcel kind tag payload).length = payload.length + 4 := by
  simp [parcel]

/-- R10, R33: what a held answer must be holds of a sent parcel. -/
theorem parcel_good (kind tag : Byte) {payload : List Byte} {effect : PostEffect} (power : PowerState)
    (h : 2 ≤ payload.length ∧ payload.length ≤ 60) (he : effect = .enterDoze ∨ effect = .enterSleep → power = .run) :
    Answer.good power { bytes := parcel kind tag payload, effect := effect } :=
  ⟨by rw [parcel_length]; omega, by rw [parcel_length]; omega, byteSum_parcel kind tag payload, he⟩

/-! ## The end of a step (R32, R177) -/

/-- R30, R32: the front slot goes to Replying with an answer held, in Run or in Doze. -/
theorem Fitting.answered {s t : State} {a : Answer} (h : Fitting s) {front : Slot} {rest : List Slot}
    (hs : s.requests.slots = front :: rest) (hf : front.stage ≠ .filling)
    (hp : engineRuns s.power.state = true) (hlink : t.link = s.link)
    (hreq : t.requests = { slots := setFrontStage .replying s.requests.slots, engine := .replying a })
    (hpower : t.power.state = s.power.state ∨ t.power.state = .run) (hpins : t.pins = s.pins)
    (hrun : t.chains.queue ≠ [] → t.power.state = .run) (ha : a.good t.power.state)
    (haway : a.effect = .enterDoze ∨ a.effect = .enterSleep → t.chains.queue = [] ∧ t.power.state = .run) :
    Fitting t ∧ Settled t := by
  have hpt : engineRuns t.power.state = true := by
    rcases hpower with e | e
    · rw [e]; exact hp
    · rw [e]; rfl
  have hq := h.queue
  have hslots : t.requests.slots = { front with stage := .replying } :: rest := by rw [hreq, hs]; rfl
  have hengine : t.requests.engine = .replying a := by rw [hreq]
  obtain ⟨few, ⟨_, noneExecuting⟩, fillingLast, replyingFirst, -, collecting, -⟩ := hq
  rw [hs] at few noneExecuting fillingLast replyingFirst
  have notAway : t.power.state ≠ .starting ∧ t.power.state ≠ .sleepPending ∧ t.power.state ≠ .sleep := by
    rcases (engineRuns_iff _).1 hpt with e | e <;> simp [e]
  refine ⟨?_, settled_of_runs hpt (rejectionDue_of_busy (by simp [hengine]))⟩
  exact
    { queue :=
        { few := by rw [hslots]; exact few
          noneExecuting := by
            rw [hslots, hengine]
            refine ⟨nofun, fun slot hm => ?_⟩
            rcases List.mem_cons.1 hm with rfl | hm
            · nofun
            · exact noneExecuting slot (List.mem_cons_of_mem _ hm)
          fillingLast := by
            rw [hslots]
            cases rest with
            | nil => nofun
            | cons next rest =>
              intro slot hm
              rcases List.mem_cons.1 hm with rfl | hm
              · nofun
              · exact fillingLast slot (List.mem_cons_of_mem _ hm)
          replyingFirst := by rw [hslots]; exact replyingFirst
          replying := ⟨fun _ => ⟨_, _, hslots, rfl⟩, fun _ => ⟨a, hengine⟩⟩
          collecting := by rw [hlink, collecting, hslots, hs]; simp [hf]
          suspended := by rw [hengine]; simp [notAway] }
      ring := hlink ▸ h.ring
      assembler := hlink ▸ h.assembler
      answer := fun b hb => by rw [hengine] at hb; cases hb; exact ha
      starting := fun hp => absurd hp notAway.1
      asleep := fun hp => absurd hp notAway.2.2
      rst := fun hr => by
        rw [hpins] at hr
        have hst := h.rst hr
        rw [hst] at hp
        cases hp
      chains := ⟨hrun, fun b hb => by rw [hengine] at hb; cases hb; exact haway⟩ }

/-- R30, R32: an answer held for the front slot of an Idle engine that runs. -/
theorem Fitting.holdAnswer {s : State} {a : Answer} (h : Fitting s) {front : Slot} {rest : List Slot}
    (hs : s.requests.slots = front :: rest) (hf : front.stage ≠ .filling) (hp : engineRuns s.power.state = true)
    (ha : a.good s.power.state) (he : ¬ (a.effect = .enterDoze ∨ a.effect = .enterSleep)) : Fitting (holdAnswer a s) :=
  (h.answered (t := Machine.holdAnswer a s) hs hf hp rfl rfl (.inl rfl) rfl h.chains.run ha fun hw => absurd hw he).1

/-- R32: the turn of a Rejected slot at the end of a step. -/
theorem Fitting.withReject {s : State} (h : Fitting s) : Fitting (withReject s) := by
  by_cases hd : rejectionDue s = true
  · rw [← buildReject_eq]
    simp only [rejectionDue, Bool.and_eq_true, beq_iff_eq] at hd
    obtain ⟨⟨hi, hp⟩, hr⟩ := hd
    unfold buildReject
    rw [if_pos ⟨hi, hp⟩]
    cases hs : s.requests.slots with
    | nil => simp [frontRejection, hs] at hr
    | cons front rest =>
      obtain ⟨stage, stored⟩ := front
      cases stage with
      | waitingRejected reason =>
        simp only [frontRejection, hs]
        exact h.holdAnswer hs nofun hp (parcel_good _ _ _ (by simp) (by simp)) (by simp)
      | _ => simp [frontRejection, hs] at hr
  · rw [withReject_eq_self s (Bool.eq_false_iff.2 hd)]
    exact h

/-- R177: the entry to Sleep at the end of a step. -/
theorem Fitting.sleptIfQuiet {s : State} (h : Fitting s) : Fitting (sleptIfQuiet s) := by
  unfold Machine.sleptIfQuiet
  split
  next hq =>
    obtain ⟨hp, hring, hcode, hheld⟩ := hq
    have he : s.requests.engine = .suspended := h.queue.suspended.2 (.inl hp)
    exact
      { h with
        queue := { h.queue with suspended := ⟨fun _ => .inr rfl, fun _ => he⟩ }
        answer := fun a ha => absurd (he.symm.trans ha) nofun
        starting := nofun
        asleep := fun _ => ⟨hring, hcode⟩
        rst := fun hr => absurd (hp.symm.trans (h.rst hr)) nofun
        chains := ⟨fun hc => absurd (hp.symm.trans (h.chains.run hc)) nofun, fun a ha => absurd (he.symm.trans ha) nofun⟩ }
  next => exact h

/-- R32, R177: whatever a step has done, its end leaves a settled state. -/
theorem Fitting.closeStep {s : State} (h : Fitting s) : Fitting (closeStep s) ∧ Settled (closeStep s) :=
  ⟨closeStep_eq s ▸ h.withReject.sleptIfQuiet, settled_closeStep s⟩

end Sys2Proof.Machine
end

section
/-! PROOFS. The port and the assembler keep the invariant of the link (R3 to R9, R13, R23 to R25, R178). -/

namespace Sys2Proof.Machine

/-- What a step that goes on from a good state must leave. -/
abbrev Together (s : State) : Prop := Fitting s ∧ Settled s

theorem Together.of_linkView {s t : State} (h : Together s) (e : linkView t = linkView s) : Together t :=
  ⟨h.1.of_linkView e, settled_of_linkView h.2 e⟩

section
variable {s : State}

/-! ## The port -/

/-- R35, R181: a reset of the power-on kind. -/
theorem resetPart_together (cause : ResetCause) (s : State) : Together (resetPart cause s) := by
  refine ⟨?_, rfl, rfl⟩
  exact
    { queue :=
        { few := Nat.zero_le _
          noneExecuting := ⟨nofun, nofun⟩
          fillingLast := nofun
          replyingFirst := nofun
          replying := ⟨nofun, nofun⟩
          collecting := ⟨nofun, nofun⟩
          suspended := ⟨nofun, nofun⟩ }
      ring := Nat.zero_le _
      assembler := trivial
      answer := nofun
      starting := fun _ => ⟨rfl, rfl, rfl, rfl⟩
      asleep := fun _ => ⟨rfl, rfl⟩
      rst := fun _ => rfl
      chains := ⟨fun h => absurd rfl h, nofun⟩ }

/-- R6: a byte held outside Starting. -/
theorem Together.holdByte (h : Together s) (hp : s.power.state ≠ .starting) (value : Byte) : Together (holdByte value s) := by
  have held : Together { s with link := { s.link with holding := some value, overrunMet := false } } :=
    ⟨{ h.1 with queue := { h.1.queue with }, starting := fun hs => absurd hs hp, chains := { h.1.chains with } },
      h.2.1, by simp [sleepReady]⟩
  unfold Machine.holdByte
  split
  · exact held.of_linkView rfl
  · exact held

/-- R8: an overrun marks a parcel and changes no more of the assembler. -/
theorem markOverrun_code (a : Assembler) : assemblerCode (markOverrun a) = assemblerCode a := by
  cases a <;> rfl

theorem markOverrun_good {a : Assembler} (h : a.good) : (markOverrun a).good := by
  cases a <;> exact h

/-- R8: an overrun against a held byte, outside Starting. -/
theorem Together.overrun (h : Together s) (hp : s.power.state ≠ .starting) (hh : s.link.holding ≠ none) :
    Together (overrun s) := by
  have hq := h.1.queue
  refine ⟨?_, h.2.1, by simpa [sleepReady, Machine.overrun] using fun _ _ _ => Option.isSome_iff_ne_none.2 hh⟩
  exact
    { h.1 with
      queue := { hq with collecting := (iff_of_eq (congrArg (· = 1) (markOverrun_code s.link.assembler))).trans hq.collecting }
      assembler := markOverrun_good h.1.assembler
      starting := fun hs => absurd hs hp
      asleep := fun hs => ⟨(h.1.asleep hs).1, (markOverrun_code _).trans (h.1.asleep hs).2⟩
      chains := { h.1.chains with } }

/-- R23, R24: a RESYNC. -/
theorem Together.resyncLink (h : Together s) : Together (resyncLink s) := by
  unfold Machine.resyncLink
  split
  next => exact h
  next hp =>
    have hq := h.1.queue
    have hsus : resyncEngine s.requests.engine = .suspended ↔ s.requests.engine = .suspended := by
      cases s.requests.engine <;> simp [resyncEngine]
    have hrep : ∀ a, resyncEngine s.requests.engine ≠ .replying a := by
      cases s.requests.engine <;> simp [resyncEngine]
    have hexe : resyncEngine s.requests.engine ≠ .executing := by
      cases s.requests.engine <;> simp [resyncEngine]
    refine Fitting.closeStep
      { queue :=
          { few := Nat.zero_le _
            noneExecuting := ⟨hexe, nofun⟩
            fillingLast := nofun
            replyingFirst := nofun
            replying := replying_iff_of_none hrep nofun
            collecting := ⟨nofun, nofun⟩
            suspended := hsus.trans hq.suspended }
        ring := Nat.zero_le _
        assembler := trivial
        answer := fun a ha => absurd ha (hrep a)
        starting := fun hs => absurd hs hp
        asleep := fun _ => ⟨rfl, rfl⟩
        rst := h.1.rst
        chains := ⟨h.1.chains.run, fun a ha => absurd ha (hrep a)⟩ }

theorem Together.fullResetPart (h : Together s) : Together (fullResetPart s) := by
  unfold Machine.fullResetPart
  split
  · exact h.of_linkView rfl
  · exact resetPart_together ..

theorem Together.writeLinkData (h : Together s) (value : Byte) : Together (writeLinkData value s) := by
  unfold Machine.writeLinkData
  split
  next => exact h
  next hp =>
    split
    next => exact h.holdByte hp value
    next hh => exact h.overrun hp (by simp [hh])

theorem Together.writeLinkControl (h : Together s) (value : Byte) : Together (writeLinkControl value s) := by
  unfold Machine.writeLinkControl
  split
  · exact h.fullResetPart
  · split
    · exact h.resyncLink
    · exact h

/-- R3: a write to any port address. -/
theorem Together.portWrite (h : Together s) (address : PortAddress) (value : Byte) : Together (portWrite address value s) := by
  unfold Machine.portWrite
  split
  · exact h.writeLinkControl value
  split
  · exact h
  split
  · exact h.writeLinkData value
  split
  · exact h.of_linkView rfl
  split
  · exact h.of_linkView rfl
  split
  · exact h.of_linkView rfl
  split
  · exact h.of_linkView rfl
  · exact h

/-- R9: a read of Link Data. -/
theorem Together.readLinkData (h : Together s) : Together (readLinkData s) := by
  unfold Machine.readLinkData
  split
  next => exact h.of_linkView rfl
  next b rest hr =>
    have hring := h.1.ring
    rw [hr] at hring
    refine Fitting.closeStep
      { h.1 with
        queue := { h.1.queue with }
        ring := Nat.le_of_succ_le hring
        starting := fun hs => absurd (hr.symm.trans (h.1.starting hs).2.1) nofun
        asleep := fun hs => absurd (hr.symm.trans (h.1.asleep hs).1) nofun
        chains := { h.1.chains with } }

/-! ## The assembler -/

/-- R7: the held byte is taken outside Starting and Sleep. -/
theorem ableToTake_iff (s : State) : ableToTake s = true ↔
    (s.power.state = .run ∨ s.power.state = .sleepPending ∨ s.power.state = .doze) ∧
      (assemblerCode s.link.assembler ≠ 0 ∨ s.requests.slots.length < 4) := by
  unfold ableToTake
  rw [Bool.and_eq_true, Bool.or_eq_true (_ != _), decide_eq_true_iff, bne_iff_ne]
  simp only [Bool.or_eq_true, beq_iff_eq, or_assoc]
  rfl

/-- R7: the holding register emptied, outside Starting. -/
theorem Fitting.emptyHolding (h : Fitting s) (hp : s.power.state ≠ .starting) : Fitting (emptyHolding s) :=
  { h with queue := { h.queue with }, starting := fun hs => absurd hs hp, chains := { h.chains with } }

/-- R14, R18: the assembler in another state that collects neither before nor after, outside Starting. -/
theorem Fitting.setAssembler (h : Fitting s) (hp : s.power.state ≠ .starting) {a : Assembler} (ha : a.good)
    (hc : assemblerCode a = 1 ↔ assemblerCode s.link.assembler = 1) (hs : s.power.state = .sleep → assemblerCode a = 0) :
    Fitting (setAssembler a s) :=
  { h with
    queue := { h.queue with collecting := hc.trans h.queue.collecting }
    assembler := ha
    starting := fun hs => absurd hs hp
    asleep := fun hsl => ⟨(h.asleep hsl).1, hs hsl⟩
    chains := { h.chains with } }

/-- R13, R178: a parcel is begun, and a pending sleep abandoned. -/
theorem Fitting.beginParcel (h : Fitting s) (hp : s.power.state ≠ .starting) (hsl : s.power.state ≠ .sleep)
    (hn : assemblerCode s.link.assembler ≠ 1) (hroom : s.requests.slots.length < 4) {a : Assembler} (ha : a.good)
    (hc : assemblerCode a = 1) : Fitting (abandonSleep (Machine.setAssembler a (allocateSlot s))) := by
  have hq := h.queue
  have nofill := hq.not_filling hn
  let x : Slot := { stage := .filling, stored := [] }
  -- what the longer queue is, whatever becomes of the engine
  have begun : ∀ (power : Power) (engine : EngineState), engine ≠ .executing →
      (∀ b, engine = .replying b → s.requests.engine = .replying b ∧ power.state = s.power.state) →
      (∀ b, s.requests.engine = .replying b → engine = .replying b) →
      (engine = .suspended ↔ power.state = .sleepPending ∨ power.state = .sleep) → power.state ≠ .starting → power.state ≠ .sleep →
      (s.power.state = .run → power.state = .run) →
      Fitting { s with
        power := power
        link := { s.link with assembler := a }
        requests := { slots := s.requests.slots ++ [x], engine := engine } } := by
    intro power engine hexe hback hforth hsus hst hsleep hrun
    exact
      { queue :=
          { few := by simp only [List.length_append, List.length_singleton]; exact hroom
            noneExecuting := by
              refine ⟨hexe, fun slot hm => ?_⟩
              rcases List.mem_append.1 hm with hm | hm
              · exact hq.noneExecuting.2 slot hm
              · rw [List.mem_singleton.1 hm]; nofun
            fillingLast := by simpa using nofill
            replyingFirst := by
              intro slot hm
              dsimp only at hm
              cases hs : s.requests.slots with
              | nil => simp [hs] at hm
              | cons front rest =>
                rw [hs, List.cons_append, List.tail_cons] at hm
                rcases List.mem_append.1 hm with hm | hm
                · exact hq.replyingFirst slot (by rw [hs]; exact hm)
                · rw [List.mem_singleton.1 hm]; nofun
            replying := by
              constructor
              · rintro ⟨b, hb⟩
                obtain ⟨front, rest, hs, hr⟩ := hq.replying.1 ⟨b, (hback b hb).1⟩
                exact ⟨front, rest ++ [x], by simp [hs], hr⟩
              · rintro ⟨front, rest, hs, hr⟩
                dsimp only at hs
                cases hs' : s.requests.slots with
                | nil =>
                  rw [hs'] at hs
                  cases hs
                  cases hr
                | cons front' rest' =>
                  rw [hs'] at hs
                  cases hs
                  obtain ⟨b, hb⟩ := hq.replying.2 ⟨front, rest', hs', hr⟩
                  exact ⟨b, hforth b hb⟩
            collecting := ⟨fun _ => ⟨x, by simp, rfl⟩, fun _ => hc⟩
            suspended := hsus }
        ring := h.ring
        assembler := ha
        answer := fun b hb => (hback b hb).2 ▸ h.answer b (hback b hb).1
        starting := fun hs => absurd hs hst
        asleep := fun hs => absurd hs hsleep
        rst := fun hr => absurd (h.rst hr) hp
        chains := ⟨fun hne => hrun (h.chains.run hne), fun b hb hw => by
          obtain ⟨hqe, hr⟩ := h.chains.answer b (hback b hb).1 hw
          exact ⟨hqe, hrun hr⟩⟩ }
  unfold abandonSleep
  split
  next hsp =>
    have hpend : s.power.state = .sleepPending := hsp
    have he : s.requests.engine = .suspended := hq.suspended.2 (.inl hpend)
    exact begun { s.power with state := .run } .idle nofun nofun (fun b hb => absurd (he.symm.trans hb) nofun)
      ⟨nofun, nofun⟩ nofun nofun fun _ => rfl
  next =>
    exact begun s.power s.requests.engine hq.noneExecuting.1 (fun b hb => ⟨hb, rfl⟩) (fun _ => id) hq.suspended hp hsl id

end

end Sys2Proof.Machine
end

section
/-! PROOFS. The completion of a parcel, the ticks and the posting keep the invariant of the link (R15 to R18, R33, R164, R175, R177, R182). -/

namespace Sys2Proof.Machine

section
variable {s : State}

/-- R16, R17: the parcel in the Filling slot is over: the slot is Waiting or Free, and a Length is awaited. -/
theorem Fitting.endParcel (h : Fitting s) (hp : s.power.state ≠ .starting) {front : List Slot} {stored : List Byte}
    (hs : s.requests.slots = front ++ [{ stage := .filling, stored := stored }]) (hfront : ∀ slot ∈ front, slot.stage ≠ .filling)
    {left : List Slot} (hone : left.length ≤ 1) (hwait : ∀ slot ∈ left, slot.stage.waiting = true) (preMark : Bool) :
    Fitting { s with
      link := { s.link with assembler := .awaitLength preMark }
      requests := { s.requests with slots := front ++ left } } := by
  obtain ⟨few, ⟨hexe, noneExecuting⟩, -, replyingFirst, replying, -, suspended⟩ := h.queue
  rw [hs] at few noneExecuting replyingFirst replying
  have noFilling : ∀ slot ∈ front ++ left, slot.stage ≠ .filling := by
    intro slot hm hf
    rcases List.mem_append.1 hm with hm | hm
    · exact hfront slot hm hf
    · exact absurd (hwait slot hm) (by simp [hf, SlotStage.waiting])
  have notReplying : ∀ slot ∈ left, slot.stage ≠ .replying := fun slot hm hr =>
    absurd (hwait slot hm) (by simp [hr, SlotStage.waiting])
  exact
    { queue :=
        { few := by
            simp only [List.length_append, List.length_singleton] at few ⊢
            omega
          noneExecuting := by
            refine ⟨hexe, fun slot hm hx => ?_⟩
            rcases List.mem_append.1 hm with hm | hm
            · exact noneExecuting slot (List.mem_append_left _ hm) hx
            · exact absurd (hwait slot hm) (by simp [hx, SlotStage.waiting])
          fillingLast := fun slot hm => noFilling slot (List.mem_of_mem_dropLast hm)
          replyingFirst := by
            intro slot hm
            cases front with
            | nil => exact notReplying slot (List.mem_of_mem_tail hm)
            | cons first rest =>
              rcases List.mem_append.1 hm with hm | hm
              · exact replyingFirst slot (List.mem_append_left _ hm)
              · exact notReplying slot hm
          replying := by
            rw [replying]
            cases front with
            | nil =>
              constructor
              · rintro ⟨first, rest, e, hr⟩
                cases e
                cases hr
              · rintro ⟨first, rest, e, hr⟩
                exact absurd hr (notReplying first (by
                  have e : left = first :: rest := e
                  simp [e]))
            | cons first rest => simp
          collecting := ⟨nofun, fun ⟨slot, hm, hf⟩ => absurd hf (noFilling slot hm)⟩
          suspended := suspended }
      ring := h.ring
      assembler := trivial
      answer := h.answer
      starting := fun hst => absurd hst hp
      asleep := fun hsl => ⟨(h.asleep hsl).1, rfl⟩
      rst := h.rst
      chains := { h.chains with } }

/-- R15: the byte is stored and the count goes on. -/
theorem Fitting.storeByte (h : Fitting s) (hp : s.power.state ≠ .starting) (hsl : s.power.state ≠ .sleep)
    {front : List Slot} {stored : List Byte} (hs : s.requests.slots = front ++ [{ stage := .filling, stored := stored }])
    (more : List Byte) {a : Assembler} (ha : a.good) (hc : assemblerCode a = 1) :
    Fitting { s with
      link := { s.link with assembler := a }
      requests := { s.requests with slots := front ++ [{ stage := .filling, stored := more }] } } := by
  obtain ⟨few, ⟨hexe, noneExecuting⟩, fillingLast, replyingFirst, replying, -, suspended⟩ := h.queue
  rw [hs] at few noneExecuting fillingLast replyingFirst replying
  exact
    { queue :=
        { few := by simpa using few
          noneExecuting := by
            refine ⟨hexe, fun slot hm => ?_⟩
            rcases List.mem_append.1 hm with hm | hm
            · exact noneExecuting slot (List.mem_append_left _ hm)
            · rw [List.mem_singleton.1 hm]; nofun
          fillingLast := by simpa using fillingLast
          replyingFirst := by
            intro slot hm
            cases front with
            | nil => cases hm
            | cons first rest =>
              rcases List.mem_append.1 hm with hm | hm
              · exact replyingFirst slot (List.mem_append_left _ hm)
              · rw [List.mem_singleton.1 hm]; nofun
          replying := by
            rw [replying]
            cases front with
            | nil =>
              constructor
              · rintro ⟨first, rest, e, hr⟩
                cases e
                cases hr
              · rintro ⟨first, rest, e, hr⟩
                cases e
                cases hr
            | cons first rest => simp
          collecting := ⟨fun _ => ⟨_, List.mem_append_right _ (List.mem_singleton_self _), rfl⟩, fun _ => hc⟩
          suspended := suspended }
      ring := h.ring
      assembler := ha
      answer := h.answer
      starting := fun hst => absurd hst hp
      asleep := fun hsl' => absurd hsl' hsl
      rst := h.rst
      chains := { h.chains with } }

/-- R15: the slots after a byte is stored. -/
theorem storeByte_slots {front : List Slot} {stored : List Byte}
    (hs : s.requests.slots = front ++ [{ stage := .filling, stored := stored }]) (hfront : ∀ slot ∈ front, slot.stage ≠ .filling)
    (b : Byte) :
    Machine.storeByte b s =
      { s with requests := { s.requests with slots := front ++ [{ stage := .filling, stored := stored ++ [b] }] } } := by
  unfold Machine.storeByte
  rw [hs, onFilling_last _ _ _ rfl hfront]

/-- R12, R16: what the completion of a parcel does, by the reason that applies. -/
theorem completeParcel_eq {front : List Slot} {stored : List Byte}
    (hs : s.requests.slots = front ++ [{ stage := .filling, stored := stored }]) (hfront : ∀ slot ∈ front, slot.stage ≠ .filling)
    (sum : Byte) (damaged : Bool) :
    completeParcel sum damaged s =
      match rejection sum damaged (stored.getD 0 0) with
      | none => goodParcel
          { s with requests := { s.requests with slots := front ++ [{ stage := .waitingGood, stored := stored }] } }
      | some reason =>
          { s with
            requests := { s.requests with slots := front ++ [{ stage := .waitingRejected reason, stored := stored }] }
            counters := { s.counters with reject := counted s.counters.reject } } := by
  have hmark : ∀ stage : SlotStage, markFilling stage s =
      { s with requests := { s.requests with slots := front ++ [{ stage := stage, stored := stored }] } } := by
    intro stage
    unfold markFilling
    rw [hs, onFilling_last _ _ _ rfl hfront]
  unfold completeParcel
  rw [hs, fillingSlot_last _ _ rfl hfront]
  simp only [hmark, countReject, saturate_eq_counted]
  rfl

/-- R16, R169: what a Good parcel signals is no part of the invariant. -/
theorem linkView_goodParcel (s : State) : linkView (goodParcel s) = linkView s := by
  unfold goodParcel
  rw [loadWatch_eq]
  rfl

/-- R7: a byte taken where the assembler is able to take it. -/
theorem Fitting.handleByte (h : Fitting s) (hp : s.power.state = .run ∨ s.power.state = .sleepPending ∨ s.power.state = .doze)
    (hroom : assemblerCode s.link.assembler ≠ 0 ∨ s.requests.slots.length < 4) (b : Byte) : Fitting (handleByte b s) := by
  have hst : s.power.state ≠ .starting := by rcases hp with e | e | e <;> simp [e]
  have hsl : s.power.state ≠ .sleep := by rcases hp with e | e | e <;> simp [e]
  unfold Machine.handleByte
  cases ha : s.link.assembler with
  | awaitLength preMark =>
    rw [ha] at hroom
    have hroom := hroom.resolve_left fun hn => hn rfl
    simp only [takeLength]
    split
    next hl =>
      have hl := (legalLength_iff b).1 hl
      exact h.beginParcel hst hsl (by rw [ha]; nofun) hroom ⟨by omega, hl.2, by decide, Nat.le_refl _⟩ rfl
    next =>
      have hunt : Fitting (Machine.setAssembler (.hunting Config.gapTicks) s) :=
        h.setAssembler hst ⟨by decide, Nat.le_refl _⟩ (by rw [ha]; exact ⟨nofun, nofun⟩) fun e => absurd e hsl
      exact hunt.of_linkView rfl
  | collecting toCome sum damaged gap =>
    obtain ⟨front, stored, hs, hfront⟩ := h.queue.filling_last (by rw [ha]; rfl)
    have hg := h.assembler
    rw [ha] at hg
    obtain ⟨_, hmax, _⟩ := hg
    simp only [takeCollecting, storeByte_slots hs hfront]
    split
    next =>
      rw [completeParcel_eq (front := front) (stored := stored ++ [b]) rfl hfront]
      split
      next =>
        exact (h.endParcel hst hs hfront (left := [{ stage := .waitingGood, stored := stored ++ [b] }]) (Nat.le_refl _)
          (by simp [SlotStage.waiting]) false).of_linkView (linkView_goodParcel _)
      next reason _ =>
        exact (h.endParcel hst hs hfront (left := [{ stage := .waitingRejected reason, stored := stored ++ [b] }]) (Nat.le_refl _)
          (by simp [SlotStage.waiting]) false).of_linkView rfl
    next hl =>
      exact h.storeByte hst hsl hs (stored ++ [b]) (a := .collecting (toCome - 1) (sum + b) damaged Config.gapTicks)
        ⟨by omega, by omega, by decide, Nat.le_refl _⟩ rfl
  | hunting gap =>
    exact h.setAssembler hst ⟨by decide, Nat.le_refl _⟩ (by rw [ha]; exact ⟨nofun, nofun⟩) fun e => absurd e hsl

/-- R7: the step in which a byte may be taken. -/
theorem Together.takingStep (h : Together s) : Together (takingStep s) := by
  unfold Machine.takingStep
  split
  next => exact h
  next b _ =>
    split
    next ha =>
      obtain ⟨hp, hroom⟩ := (ableToTake_iff s).1 ha
      have hst : s.power.state ≠ .starting := by rcases hp with e | e | e <;> simp [e]
      exact ((h.1.emptyHolding hst).handleByte hp hroom b).closeStep
    next => exact h

/-! ## The ticks -/

/-- R164: a tick is taken outside Starting and Sleep. -/
theorem ticksRun_iff (p : PowerState) : ticksRun p = true ↔ p = .run ∨ p = .sleepPending ∨ p = .doze := by
  cases p <;> simp [ticksRun]

/-- R17: the queue of an abandoned parcel. -/
theorem filter_not_filling {front : List Slot} {stored : List Byte} (hfront : ∀ slot ∈ front, slot.stage ≠ .filling) :
    (front ++ [({ stage := .filling, stored := stored } : Slot)]).filter (fun slot => decide (slot.stage ≠ .filling)) = front := by
  rw [List.filter_append, List.filter_eq_self.2 fun slot hm => decide_eq_true (hfront slot hm)]
  simp

/-- R17, R18: the gap timer is served. -/
theorem Fitting.serveGap (h : Fitting s) (hp : s.power.state ≠ .starting) (hsl : s.power.state ≠ .sleep) :
    Fitting (serveGap s) := by
  unfold Machine.serveGap
  have hg := h.assembler
  cases ha : s.link.assembler with
  | awaitLength preMark => exact h
  | collecting toCome sum damaged gap =>
    rw [ha] at hg
    obtain ⟨hone, hmax, hgap, hticks⟩ := hg
    dsimp only
    split
    next =>
      obtain ⟨front, stored, hs, hfront⟩ := h.queue.filling_last (by rw [ha]; rfl)
      unfold abandonParcel
      rw [hs, filter_not_filling hfront]
      have := h.endParcel hp hs hfront (left := []) (Nat.zero_le _) nofun (leftPreMark s)
      rw [List.append_nil] at this
      exact this.of_linkView rfl
    next => exact h.setAssembler hp ⟨hone, hmax, by omega, by omega⟩ (by rw [ha]; exact Iff.rfl) fun e => absurd e hsl
  | hunting gap =>
    rw [ha] at hg
    obtain ⟨hgap, hticks⟩ := hg
    dsimp only
    split
    next => exact h.setAssembler hp trivial (by rw [ha]; exact ⟨nofun, nofun⟩) fun e => absurd e hsl
    next => exact h.setAssembler hp ⟨by omega, by omega⟩ (by rw [ha]; exact Iff.rfl) fun e => absurd e hsl

theorem linkView_servePassTimer (s : State) : linkView (servePassTimer s) = linkView s := by
  unfold servePassTimer
  split
  · split <;> rfl
  · rfl

/-- R180: a return to Run of an engine that is not Suspended, with RST high. -/
theorem Fitting.returnToRun (h : Fitting s) (he : s.requests.engine ≠ .suspended) (hr : s.pins.rstLow = false) :
    Fitting (returnToRun s) := by
  rw [returnToRun_eq]
  exact
    { h with
      queue := { h.queue with suspended := ⟨fun e => absurd e he, nofun⟩ }
      answer := fun a ha => by
        obtain ⟨hmin, hmax, hsum, _⟩ := h.answer a ha
        exact ⟨hmin, hmax, hsum, fun _ => rfl⟩
      starting := nofun
      asleep := nofun
      rst := fun e => absurd (hr.symm.trans e) nofun
      chains := ⟨fun _ => rfl, fun a ha hw => ⟨(h.chains.answer a ha hw).1, rfl⟩⟩ }

/-- R167, R180: the alarm is served; in Doze it may return the part to Run. -/
theorem Fitting.serveAlarm (h : Fitting s) : Fitting (serveAlarm s) := by
  unfold Machine.serveAlarm
  split
  · exact h
  · split
    · unfold alarmExpires
      split
      next hd =>
        have hdoze := hd.1
        have rung : Fitting (raise .alarm { s with time := expiredAlarm s.time }) := h.of_linkView rfl
        refine rung.returnToRun (fun e => ?_) (Bool.eq_false_iff.2 fun e => ?_)
        · rcases h.queue.suspended.1 e with e | e <;> cases hdoze.symm.trans e
        · cases hdoze.symm.trans (h.rst e)
      next => exact h.of_linkView rfl
    · exact h.of_linkView rfl

theorem linkView_serveWatch (s : State) : linkView (serveWatch s) = linkView s := by
  unfold serveWatch
  split
  · split
    · unfold watchExpires
      cases s.time.watchAction <;> rfl
    · rfl
  · rfl

/-- R164: a tick. -/
theorem Together.tickStep (h : Together s) : Together (tickStep s) := by
  unfold Machine.tickStep
  split
  next ht =>
    have hp := (ticksRun_iff _).1 ht
    have gap : Fitting (Machine.serveGap (advanceTick s)) :=
      (h.1.of_linkView (t := advanceTick s) rfl).serveGap (by rcases hp with e | e | e <;> simp [e])
        (by rcases hp with e | e | e <;> simp [e])
    exact ((gap.of_linkView (linkView_servePassTimer _)).serveAlarm.of_linkView (linkView_serveWatch _)).closeStep
  next => exact h

/-! ## The posting -/

/-- R33: the bytes are appended, the front slot is freed, the engine becomes Idle. -/
theorem Fitting.postBytes (h : Fitting s) {a : Answer} (ha : s.requests.engine = .replying a)
    (hr : s.link.ring.length + a.bytes.length ≤ Config.ringBytes) : Fitting (postBytes a s) := by
  obtain ⟨front, rest, hs, hfront⟩ := h.queue.replying.1 ⟨a, ha⟩
  obtain ⟨few, ⟨_, noneExecuting⟩, fillingLast, replyingFirst, -, collecting, suspended⟩ := h.queue
  have awake := h.queue.awake (by simp [ha])
  rw [hs] at few noneExecuting fillingLast replyingFirst collecting
  exact
    { queue :=
        { few := by
            rw [Machine.postBytes, hs]
            exact Nat.le_of_succ_le few
          noneExecuting := by
            rw [Machine.postBytes, hs]
            exact ⟨nofun, fun slot hm => noneExecuting slot (List.mem_cons_of_mem _ hm)⟩
          fillingLast := by
            rw [Machine.postBytes, hs]
            intro slot hm
            cases rest with
            | nil => cases hm
            | cons next rest => exact fillingLast slot (List.mem_cons_of_mem _ hm)
          replyingFirst := by
            rw [Machine.postBytes, hs]
            exact fun slot hm => replyingFirst slot (List.mem_of_mem_tail hm)
          replying := by
            rw [Machine.postBytes, hs]
            exact replying_iff_of_none nofun replyingFirst
          collecting := by
            rw [Machine.postBytes, hs]
            refine collecting.trans ?_
            simp [hfront]
          suspended := ⟨nofun, fun e => absurd e (not_or.2 awake)⟩ }
      ring := by
        rw [Machine.postBytes, List.length_append]
        exact hr
      assembler := h.assembler
      answer := nofun
      starting := fun e => absurd (hs.symm.trans (h.starting e).2.2.2) nofun
      asleep := fun e => absurd e awake.2
      rst := h.rst
      chains := ⟨h.chains.run, nofun⟩ }

/-- R182: the warm reset, with the engine Idle. -/
theorem Fitting.warmReset (h : Fitting s) (hi : s.requests.engine = .idle) : Fitting (warmReset s) := by
  have hq := h.queue
  have noReplying := hq.not_replying (by simp [hi])
  have sub : ∀ slot ∈ s.requests.slots.filter (fun slot => !slot.stage.waiting), slot ∈ s.requests.slots := fun slot hm =>
    (List.mem_filter.1 hm).1
  have dropLast : ∀ slot ∈ (s.requests.slots.filter (fun slot => !slot.stage.waiting)).dropLast, slot.stage ≠ .filling := by
    intro slot hm
    by_cases hc : assemblerCode s.link.assembler = 1
    · obtain ⟨front, stored, hs, hfront⟩ := hq.filling_last hc
      have kept : [({ stage := .filling, stored := stored } : Slot)].filter (fun slot => !slot.stage.waiting) =
        [{ stage := .filling, stored := stored }] := rfl
      rw [hs, List.filter_append, kept, List.dropLast_concat] at hm
      exact hfront slot (List.mem_filter.1 hm).1
    · exact hq.not_filling hc slot (sub slot (List.mem_of_mem_dropLast hm))
  exact
    { queue :=
        { few := (List.length_filter_le ..).trans hq.few
          noneExecuting := ⟨nofun, fun slot hm => hq.noneExecuting.2 slot (sub slot hm)⟩
          fillingLast := dropLast
          replyingFirst := fun slot hm => noReplying slot (sub slot (List.mem_of_mem_tail hm))
          replying := replying_iff_of_none nofun fun slot hm => noReplying slot (sub slot hm)
          collecting := hq.collecting.trans
            ⟨fun ⟨slot, hm, hf⟩ => ⟨slot, List.mem_filter.2 ⟨hm, by rw [hf]; rfl⟩, hf⟩,
              fun ⟨slot, hm, hf⟩ => ⟨slot, sub slot hm, hf⟩⟩
          suspended := ⟨nofun, fun e => absurd (hi.symm.trans (hq.suspended.2 e)) nofun⟩ }
      ring := h.ring
      assembler := h.assembler
      answer := nofun
      starting := fun e => by
        obtain ⟨hh, hr, ha, hs⟩ := h.starting e
        exact ⟨hh, hr, ha, congrArg (List.filter _) hs⟩
      asleep := h.asleep
      rst := h.rst
      chains := ⟨fun e => absurd rfl e, nofun⟩ }

/-- R175, R177: an Idle part in Run with no chain pending goes to Doze. -/
theorem Fitting.enterDoze (h : Fitting s) (hi : s.requests.engine = .idle) (hp : s.power.state = .run)
    (hc : s.chains.queue = []) : Fitting (enterLowPower .doze s) := by
  rw [enterLowPower_eq]
  exact
    { h with
      queue := { h.queue with suspended := ⟨fun e => absurd (hi.symm.trans e) nofun, nofun⟩ }
      answer := fun a ha => absurd (hi.symm.trans ha) nofun
      starting := nofun
      asleep := nofun
      rst := fun e => absurd (hp.symm.trans (h.rst e)) nofun
      chains := ⟨fun e => absurd hc e, fun a ha => absurd (hi.symm.trans ha) nofun⟩ }

/-- R34, R177: an Idle part in Run with no chain pending goes to Sleep-Pending, its engine Suspended. -/
theorem Fitting.enterSleepPending (h : Fitting s) (hi : s.requests.engine = .idle) (hp : s.power.state = .run)
    (hc : s.chains.queue = []) : Fitting { setPower .sleepPending s with requests := { s.requests with engine := .suspended } } := by
  have hq := h.queue
  exact
    { h with
      queue :=
        { hq with
          noneExecuting := ⟨nofun, hq.noneExecuting.2⟩
          replying := replying_iff_of_none nofun (hq.not_replying (by simp [hi]))
          suspended := ⟨fun _ => .inl rfl, fun _ => rfl⟩ }
      answer := nofun
      starting := nofun
      asleep := nofun
      rst := fun e => absurd (hp.symm.trans (h.rst e)) nofun
      chains := ⟨fun e => absurd hc e, nofun⟩ }

/-- R33: the posting step. -/
theorem Together.postingStep (h : Together s) : Together (postingStep s) := by
  unfold Machine.postingStep
  split
  next a hpost =>
    obtain ⟨ha, hr⟩ : s.requests.engine = .replying a ∧ s.link.ring.length + a.bytes.length ≤ Config.ringBytes := by
      unfold postable at hpost
      split at hpost
      next b hb =>
        split at hpost
        next hr =>
          cases hpost
          exact ⟨hb, hr⟩
        next => cases hpost
      all_goals cases hpost
    have posted := h.1.postBytes ha hr
    have away := h.1.chains.answer a ha
    refine Fitting.closeStep ?_
    cases he : a.effect with
    | nothing => exact posted
    | warmReset => exact posted.warmReset rfl
    | enterDoze => exact posted.enterDoze rfl (away (.inl he)).2 (away (.inl he)).1
    | enterSleep => exact posted.enterSleepPending rfl (away (.inr he)).2 (away (.inr he)).1
  next => exact h

end

end Sys2Proof.Machine
end

section
/-! PROOFS. The scan passes, the boundaries, wake scanning and the requests keep the invariant of the link, and so does every step. -/

namespace Sys2Proof.Machine

/-! ## What no scan pass touches (R133) -/

/-- The state without what an offered event touches too: the count of lost keys and the sticky notices (R151). -/
def beyondPass (s : State) : State :=
  { beyondKeys s with
    counters := { s.counters with lostKey := 0 }
    notices := { s.notices with sticky := 0 } }

section
variable (k : Fin 64) (s : State)

/-- What no key event touches, no pass touches. -/
theorem beyondPass_of_beyondKeys {s t : State} (h : beyondKeys t = beyondKeys s) : beyondPass t = beyondPass s :=
  congrArg (fun u => { u with counters := { u.counters with lostKey := 0 }, notices := { u.notices with sticky := 0 } }) h

theorem beyondPass_setKeyState (st : KeyState) : beyondPass (setKeyState k st s) = beyondPass s := rfl

theorem beyondPass_becomeDown : beyondPass (becomeDown k s) = beyondPass s := rfl

theorem beyondPass_offer (kind : EventKind) (key : Byte) (time : Word) :
    beyondPass (offer kind key time s) = beyondPass s := by
  rw [offer_eq]
  split <;> rfl

theorem beyondKeys_readOpen : beyondKeys (readOpen k s) = beyondKeys s := by
  have settle : ∀ n, beyondKeys (settleUp k n s) = beyondKeys s := by
    intro n
    unfold settleUp
    split
    · rw [beyondKeys_endRollover, beyondKeys_clearOwnerIf, beyondKeys_releaseReported]
    · exact beyondKeys_setKeyState ..
  unfold readOpen
  split
  · rfl
  · exact beyondKeys_setKeyState ..
  · exact settle _
  · exact settle _
  · split
    · exact beyondKeys_setKeyState ..
    · exact beyondKeys_setKeyState ..

theorem beyondPass_pressTransition : beyondPass (pressTransition k s) = beyondPass s := by
  unfold pressTransition
  split
  · unfold suppressGhost
    dsimp only
    split
    · rfl
    · rw [beyondPass_offer]
      rfl
  split
  · unfold suppressRollover
    dsimp only
    split
    · rfl
    · rw [beyondPass_offer]
      rfl
  · unfold offerPress
    split
    · rw [beyondPass_becomeDown, beyondPass_offer]
    · rw [beyondPass_setKeyState, beyondPass_offer]

theorem beyondPass_readClosed : beyondPass (readClosed k s) = beyondPass s := by
  have settle : ∀ n, beyondPass (settleDown k n s) = beyondPass s := by
    intro n
    unfold settleDown
    split
    · exact beyondPass_pressTransition k s
    · rfl
  unfold readClosed
  split
  · exact settle _
  · exact settle _
  · rfl
  · rfl
  · rfl

/-- A reading of every key in turn. -/
theorem beyondPass_foldl (f : State → Fin 64 → State) (hf : ∀ t k, beyondPass (f t k) = beyondPass t) (keys : List (Fin 64)) :
    ∀ s : State, beyondPass (keys.foldl f s) = beyondPass s := by
  induction keys with
  | nil => exact fun _ => rfl
  | cons k keys ih => exact fun s => (ih (f s k)).trans (hf s k)

theorem beyondPass_releaseSide : beyondPass (releaseSide s) = beyondPass s := by
  refine beyondPass_foldl _ (fun t k => ?_) _ s
  split
  · exact beyondPass_of_beyondKeys (beyondKeys_readOpen k t)
  · rfl

theorem beyondPass_pressSide : beyondPass (pressSide s) = beyondPass s := by
  refine beyondPass_foldl _ (fun t k => ?_) _ s
  split
  · exact beyondPass_readClosed k t
  · rfl

theorem beyondPass_passToRelease (longGhosts : KeySet) : beyondPass (passToRelease longGhosts s) = beyondPass s := by
  have ghost : ∀ t, beyondPass (ghostCheck t) = beyondPass t := by
    intro t
    unfold ghostCheck
    split <;> rfl
  rw [passToRelease, beyondPass_releaseSide, ghost]
  rfl

theorem beyondPass_serveRepeat (before after : State) : beyondPass (serveRepeat before after) = beyondPass after := by
  unfold serveRepeat
  split
  · rfl
  · split
    · exact beyondPass_offer ..
    · rfl

/-- R133: a scan pass leaves what no scan pass touches. -/
theorem beyondPass_scanPassStep (longGhosts : KeySet) : beyondPass (scanPassStep longGhosts s) = beyondPass s := by
  unfold scanPassStep
  split
  · rw [runPass, beyondPass_serveRepeat, beyondPass_pressSide, beyondPass_passToRelease]
    rfl
  · rfl

end

section
variable {s : State}

/-- What the invariant reads, no scan pass touches. -/
theorem linkView_beyondPass (s : State) : linkView (beyondPass s) = linkView s := rfl

theorem Together.scanPassStep (h : Together s) (longGhosts : KeySet) : Together (scanPassStep longGhosts s) := by
  refine h.of_linkView ?_
  rw [← linkView_beyondPass, beyondPass_scanPassStep, linkView_beyondPass]

/-! ## The boundary -/

/-- The state without the canvas, the views, the panel, the frames, the chains and the sticky notices: what no boundary touches. -/
def beyondFrame (s : State) : State :=
  { s with
    canvas := defaultCanvas, views := defaultViews, panel := defaultPanel, frames := defaultFrames, chains := defaultChains
    notices := { s.notices with sticky := 0 } }

/-- R89: the nine steps of a boundary, but for the end of the step. -/
def boundarySteps (s : State) : State :=
  openFrame (setEngine s.requests.engine (takeSnapshot (raise .frame
    (applyDueChains (autoScroll (advanceBlink (countFrame (setEngine .suspended s))))))))

theorem boundary_eq (s : State) : boundary s = closeStep (boundarySteps s) := rfl

theorem portView_beyondFrame (s : State) : portView (beyondFrame s) = portView s := rfl

theorem beyondFrame_boundarySteps (s : State) : beyondFrame (boundarySteps s) = beyondFrame s := by
  have close : ∀ t : State, beyondFrame (openFrame (setEngine s.requests.engine (takeSnapshot (raise .frame t)))) =
      setEngine s.requests.engine (beyondFrame t) := fun _ => rfl
  have due : ∀ t : State, beyondFrame (applyDueChains t) = beyondFrame t := by
    intro t
    obtain ⟨canvas, views, chains, sticky, e⟩ := applyDueChains_frame t
    rw [e]
    rfl
  have blink : ∀ t : State, beyondFrame (advanceBlink t) = beyondFrame t := by
    intro t
    unfold advanceBlink
    split <;> rfl
  have scroll : ∀ t : State, beyondFrame (autoScroll t) = beyondFrame t := fun _ => rfl
  rw [boundarySteps, close, due, scroll, blink]
  rfl

/-- R117, R119: a boundary queues no chain. -/
theorem boundarySteps_queue (s : State) (h : s.chains.queue = []) : (boundarySteps s).chains.queue = [] := by
  have blink : ∀ t : State, (advanceBlink t).chains = t.chains := by
    intro t
    unfold advanceBlink
    split <;> rfl
  have hq : (autoScroll (advanceBlink (countFrame (setEngine .suspended s)))).chains.queue = [] := by
    have e : (autoScroll (advanceBlink (countFrame (setEngine .suspended s)))).chains = s.chains := blink _
    rw [e, h]
  have hn := applyDueChains_of_none _ (by rw [dueChains, hq]; rfl)
  exact (congrArg (fun t => t.chains.queue) hn).trans hq

theorem linkView_scanRow (r : Nat) (s : State) : linkView (scanRow r s) = linkView s := by
  simp only [linkView, portView, scanRow]

/-- R89: a boundary. -/
theorem Together.boundary (h : Together s) : Together (boundary s) := by
  rw [boundary_eq]
  have e : portView (boundarySteps s) = portView s := by
    rw [← portView_beyondFrame, beyondFrame_boundarySteps, portView_beyondFrame]
  exact (h.1.of_portView e (boundarySteps_queue s)).closeStep

/-! ## Wake scanning and the return to Run -/

/-- R142, R143: a key contact changes the pins, the armed lines and the wake step that is due. -/
theorem contactChanges_eq (k : Fin 64) (closed : Bool) (s : State) :
    ∃ contacts armed due, contactChanges k closed s =
      { s with
        pins := { s.pins with contacts := contacts }
        scanner := { s.scanner with armed := armed }
        power := { s.power with wakeDue := due } } := by
  unfold contactChanges
  dsimp only
  split
  · unfold lineChanges
    split
    · split
      · exact ⟨_, _, true, rfl⟩
      · exact ⟨_, _, s.power.wakeDue, rfl⟩
    · exact ⟨_, _, s.power.wakeDue, rfl⟩
  · exact ⟨_, s.scanner.armed, s.power.wakeDue, rfl⟩

theorem Together.contactChanges (h : Together s) (k : Fin 64) (closed : Bool) : Together (contactChanges k closed s) := by
  obtain ⟨contacts, armed, due, e⟩ := contactChanges_eq k closed s
  rw [e]
  exact h.of_linkView rfl

/-- R142: wake scanning runs in Doze and in Sleep. -/
theorem wakeScanning_iff (s : State) : wakeScanning s = true ↔ s.power.state = .doze ∨ s.power.state = .sleep := by
  simp [wakeScanning]

/-- R34, R179: the wake step, which resumes an engine Suspended for Sleep. -/
theorem Fitting.wake (h : Fitting s) (hw : wakeScanning s = true) : Fitting (Machine.returnToRun (resumeEngine s)) := by
  have hp := (wakeScanning_iff s).1 hw
  have hr : s.pins.rstLow = false := Bool.eq_false_iff.2 fun e => by
    rcases hp with hp | hp <;> cases hp.symm.trans (h.rst e)
  have hq := h.queue
  unfold resumeEngine
  split
  next he =>
    -- the return sets the power state itself, so that the resumed engine may be judged in Run
    have idle : Fitting { setEngine .idle s with power := { s.power with state := .run } } :=
      { h with
        queue :=
          { hq with
            noneExecuting := ⟨nofun, hq.noneExecuting.2⟩
            replying := replying_iff_of_none nofun (hq.not_replying (by simp [he]))
            suspended := ⟨nofun, nofun⟩ }
        answer := nofun
        starting := nofun
        asleep := nofun
        rst := fun e => absurd (hr.symm.trans e) nofun
        chains := ⟨fun _ => rfl, nofun⟩ }
    refine (idle.returnToRun nofun hr).of_linkView ?_
    simp only [returnToRun_eq]
    rfl
  next he => exact h.returnToRun he hr

/-- R173: the end of Starting. -/
theorem Together.endOfStarting (h : Together s) (he : startingEnds s = true) : Together (returnToRun s) := by
  simp only [startingEnds, Bool.and_eq_true, beq_iff_eq, Bool.not_eq_true'] at he
  obtain ⟨hp, hr⟩ := he
  have hs := (h.1.starting hp).2.2.2
  have ne : s.requests.engine ≠ .suspended := fun e => by
    rcases h.1.queue.suspended.1 e with e | e <;> cases hp.symm.trans e
  refine ⟨h.1.returnToRun ne hr, ?_⟩
  rw [returnToRun_eq]
  exact settled_of_runs rfl (rejectionDue_of_empty hs)

/-- R174: the RST input. -/
theorem Together.rstChanges (h : Together s) (low : Bool) : Together (rstChanges low s) := by
  unfold Machine.rstChanges
  have reset := resetPart_together .rstPin s
  split
  next =>
    exact
      ⟨{ reset.1 with queue := { reset.1.queue with }, rst := fun _ => rfl, chains := { reset.1.chains with } }, reset.2⟩
  next hl =>
    have low_only : low = true → s.pins.rstLow = true := fun e => by simpa [e] using hl
    exact
      ⟨{ h.1 with queue := { h.1.queue with }, rst := fun e => h.1.rst (low_only e), chains := { h.1.chains with } }, h.2⟩

/-! ## The requests -/

/-- R30: the slot of a due execution step stands in front, Waiting and Good. -/
theorem executionSlot_eq_some {slot : Slot} (h : executionSlot s = some slot) :
    ∃ rest, s.requests.slots = slot :: rest ∧ s.requests.engine = .idle ∧ slot.stage = .waitingGood ∧
      engineRuns s.power.state = true := by
  unfold executionSlot at h
  split at h
  · cases h
  next front rest hs =>
    split at h
    next hc =>
      cases h
      exact ⟨rest, hs, hc⟩
    next => cases h

/-- R30: an execution step whose body can do no more than a request can. -/
theorem Together.execute (h : Together s) (accepts : Byte → Bool) {body : List Byte → State → Verdict} (c : Instr)
    (hb : ∀ payload s, match body payload s with
      | .fail _ result => result.length ≤ 58
      | .done after result effect => (Verdict.done after result effect).keeps c s) : Together (execute accepts body s) := by
  rcases execute_cases accepts body s with e | ⟨slot, hslot, -, e⟩
  · rw [e]
    exact h
  · obtain ⟨rest, hs, hi, hstage, hp⟩ := executionSlot_eq_some hslot
    have hf : slot.stage ≠ .filling := by simp [hstage]
    have hb := hb slot.payload (beginExecution s)
    rw [e]
    cases hv : body slot.payload (beginExecution s) with
    | fail code result =>
      rw [hv] at hb
      refine h.1.answered (a := { bytes := replyParcel slot code result, effect := .nothing }) hs hf hp rfl ?_ (.inl rfl) rfl
        h.1.chains.run (parcel_good _ _ _ ?_ (by simp)) (by simp)
      · simp only [endExecution, holdAnswer_requests, beginExecution_slots, setFrontStage_setFrontStage]
      · simp only [List.length_cons]
        omega
    | done after result effect =>
      rw [hv] at hb
      obtain ⟨keeps, hlen, haway⟩ := hb
      have hpower : after.power.state = s.power.state ∨ after.power.state = .run := keeps.power.imp_right And.right
      have runs : s.power.state ≠ .doze → after.power.state = .run := fun hd => by
        rcases keeps.power with e | e
        · rw [e]
          exact ((engineRuns_iff _).1 hp).resolve_right hd
        · exact e.2
      refine h.1.answered (t := endExecution slot (beginExecution s) (.done after result effect))
        (a := { bytes := replyParcel slot .done result, effect := effect }) hs hf hp keeps.link ?_ hpower keeps.pins (fun hne => ?_)
        (parcel_good _ _ _ ?_ fun hw => runs (haway hw).1) fun hw => ⟨?_, runs (haway hw).1⟩
      · simp only [endExecution, holdAnswer_requests, keeps.requests, beginExecution_slots, setFrontStage_setFrontStage]
      · refine (keeps.queue hne).elim (fun hq => hpower.elim (fun e => ?_) id) runs
        exact e.trans (h.1.chains.run hq)
      · simp only [List.length_cons]
        omega
      · exact (haway hw).2

/-- R39: a request of a Kind outside the catalogue. -/
theorem Together.unknownKindRequest (h : Together s) : Together (Machine.execute unknownKind unknownKindBody s) :=
  h.execute unknownKind .unknownKindRequest fun _ _ => Nat.zero_le _

/-- R30, R36, R37: a request of the catalogue. -/
theorem Together.request (h : Together s) {c : Instr} {kind : Byte} (hc : requestCode c = some kind) : Together (effect c s) := by
  rw [effect_of_requestCode hc]
  refine h.execute _ c fun payload s => ?_
  have hk := requestBody_keeps hc payload s
  cases hv : requestBody c payload s with
  | fail code result =>
    rw [hv] at hk
    obtain ⟨_, _, _, hl⟩ := hk
    exact hl
  | done after result effect =>
    rw [hv] at hk
    exact hk

/-! ## Every command -/

/-- A command that acts in some states only. -/
theorem Together.ite {p : Prop} [Decidable p] {t : State} (h : Together s) (ht : p → Together t) : Together (if p then t else s) := by
  split
  · exact ht ‹_›
  · exact h

/-- The invariant goes through every command. -/
theorem Together.effect (h : Together s) (c : Instr) : Together (effect c s) := by
  cases c with
  | linkDataWrite value => exact h.portWrite 0 value
  | linkDataRead => exact h.readLinkData
  | linkStatusRead => exact h.of_linkView rfl
  | resync value => exact h.portWrite 1 value
  | fullReset value => exact h.portWrite 1 value
  | noticeAcknowledge address value => exact h.portWrite address value
  | noticeMask address value => exact h.portWrite address value
  | ignoredPortWrite address value => exact h.portWrite address value
  | byteTaken => exact h.takingStep
  | gapTimeout => exact h.ite fun _ => h.tickStep
  | huntingEnd => exact h.ite fun _ => h.tickStep
  | posting => exact h.postingStep
  | sleepEntry =>
    show Together (enterSleepIfReady s)
    rw [enterSleepIfReady_eq, sleptIfQuiet_eq_self s h.2.2]
    exact h
  | unknownKindRequest => exact h.unknownKindRequest
  | frameBoundary waited =>
    have waiting : Together (countWait waited s) := by cases waited <;> exact h.of_linkView rfl
    show Together (if boundaryDue s then Machine.boundary (countWait waited s) else s)
    exact h.ite fun _ => waiting.boundary
  | resumingBoundary =>
    show Together (if resumingDue s then Machine.boundary s else s)
    exact h.ite fun _ => h.boundary
  | rowScanOut =>
    show Together (match dueRow s with
      | some r => scanRow r s
      | none => s)
    cases dueRow s with
    | none => exact h
    | some r => exact h.of_linkView (linkView_scanRow r s)
  | tick => exact h.tickStep
  | scanPass longGhosts =>
    show Together (Machine.scanPassStep longGhosts s)
    exact h.scanPassStep longGhosts
  | repeatEvent longGhosts =>
    show Together (if repeatRunsOut longGhosts s then Machine.scanPassStep longGhosts s else s)
    exact h.ite fun _ => h.scanPassStep longGhosts
  | alarmExpiry => exact h.ite fun _ => h.tickStep
  | linkWatchExpiry => exact h.ite fun _ => h.tickStep
  | wakeStep =>
    show Together (if wakeStepDue s then closeStep (returnToRun (resumeEngine s)) else s)
    exact h.ite fun hw => (h.1.wake (Bool.and_eq_true_iff.1 hw).1).closeStep
  | endOfStarting => exact h.ite fun he => h.endOfStarting he
  | powerOnReset => exact resetPart_together ..
  | rstPinReset low => exact h.rstChanges low
  | watchedLineChange key closed => exact h.contactChanges key closed
  | _ => exact h.request rfl

end

end Sys2Proof.Machine

namespace Sys2Proof.Proofs

open Sys2Proof.Machine

/-- Settles O53: the invariant goes through every command, and taking the command off the queue is no part of it. -/
theorem linkAndPowerStayTogether : Obligations.LinkAndPowerStayTogether := by
  intro s t h hstep
  rw [linkGood_and_chainsAwake_iff] at h ⊢
  have h : Together s := h
  cases hp : s.pending with
  | nil =>
    rw [step_of_pending_nil hp] at hstep
    cases hstep
    exact h
  | cons c rest =>
    rw [step_of_pending_cons hp, exec_eq_effect] at hstep
    cases hstep
    exact (h.of_linkView (t := s.withPending rest) rfl).effect c

end Sys2Proof.Proofs
end

section
/-! PROOFS. The statements about the port: what a write to each address and a read of Link Data and of Link Status does (R3 to R9, R23 to R25,
R158, R160, R174). -/

namespace Sys2Proof.Machine

section
variable {s : State}

/-! ## The commands of the port -/

theorem exec_linkDataWrite (value : Byte) : exec (.linkDataWrite value) s = .next (portWrite 0 value s) := rfl
theorem exec_linkDataRead : exec .linkDataRead s = .next (readLinkData s) := rfl
theorem exec_resync (value : Byte) : exec (.resync value) s = .next (portWrite 1 value s) := rfl
theorem exec_fullReset (value : Byte) : exec (.fullReset value) s = .next (portWrite 1 value s) := rfl
theorem exec_noticeAcknowledge (address : PortAddress) (value : Byte) :
    exec (.noticeAcknowledge address value) s = .next (portWrite address value s) := rfl
theorem exec_noticeMask (address : PortAddress) (value : Byte) :
    exec (.noticeMask address value) s = .next (portWrite address value s) := rfl
theorem exec_rstPinReset (low : Bool) : exec (.rstPinReset low) s = .next (rstChanges low s) := rfl
theorem exec_endOfStarting : exec .endOfStarting s = .next (if startingEnds s then returnToRun s else s) := rfl

/-! ## Writes to a port address (R3, R5, R174) -/

/-- R3: a write to Link Data with RST high. -/
theorem portWrite_linkData (h : s.pins.rstLow = false) (value : Byte) : portWrite 0 value s = writeLinkData value s := by
  simp [portWrite, h]

/-- R174: while RST is low a write to any address but Link Control is ignored. -/
theorem portWrite_of_rstLow (h : s.pins.rstLow = true) {address : PortAddress} (ha : address ≠ 1) (value : Byte) :
    portWrite address value s = s := by
  simp only [portWrite, ha, h, if_false, if_true]

/-- R3: a write to address 6 or 7 is ignored. -/
theorem portWrite_ignored {address : PortAddress} (ha : address = 6 ∨ address = 7) (value : Byte) : portWrite address value s = s := by
  rcases ha with rfl | rfl <;> simp [portWrite]

/-- R5: bit 1 of a Link Control byte is FULL RESET. -/
theorem portWrite_fullReset {value : Byte} (h : value.getLsbD 1 = true) : portWrite 1 value s = fullResetPart s := by
  simp only [portWrite, writeLinkControl, h, if_true]

/-- R5: bit 0 alone is RESYNC, with RST high. -/
theorem portWrite_resync {value : Byte} (hr : s.pins.rstLow = false) (h0 : value.getLsbD 0 = true) (h1 : value.getLsbD 1 = false) :
    portWrite 1 value s = resyncLink s := by
  simp only [portWrite, writeLinkControl, h0, h1, hr, if_true, Bool.false_eq_true, if_false, Bool.not_false, Bool.and_self]

/-- R174: while RST is low a RESYNC is ignored. -/
theorem portWrite_resync_of_rstLow {value : Byte} (hr : s.pins.rstLow = true) (h1 : value.getLsbD 1 = false) :
    portWrite 1 value s = s := by
  simp only [portWrite, writeLinkControl, h1, hr, if_true, Bool.false_eq_true, if_false, Bool.not_true, Bool.and_false]

/-! ## Link Data (R6, R8, R9) -/

theorem writeLinkData_of_starting (h : s.power.state = .starting) (value : Byte) : writeLinkData value s = s := by
  simp only [writeLinkData, h, if_true]

/-- R6, R179: a byte that finds the holding register empty. -/
theorem writeLinkData_of_empty (hp : s.power.state ≠ .starting) (hh : s.link.holding = none) (value : Byte) :
    writeLinkData value s =
      { s with
        link := { s.link with holding := some value, overrunMet := false }
        power := if s.power.state = .sleep then { s.power with wakeDue := true } else s.power } := by
  unfold writeLinkData holdByte
  rw [if_neg hp, hh]
  dsimp only
  split <;> rfl

/-- R8: a byte that finds the holding register full. -/
theorem writeLinkData_of_held (hp : s.power.state ≠ .starting) {held : Byte} (hh : s.link.holding = some held) (value : Byte) :
    writeLinkData value s = overrun s := by
  unfold writeLinkData
  rw [if_neg hp, hh]

/-- R8, R43: the overrun. -/
theorem overrun_eq (s : State) :
    overrun s =
      { s with
        link := { s.link with overrunMet := true, assembler := markOverrun s.link.assembler }
        notices := { s.notices with sticky := s.notices.sticky ||| BitVec.twoPow 11 2 }
        counters := { s.counters with overrun := counted s.counters.overrun } } := by
  rw [← saturate_eq_counted]
  rfl

/-- R9, R177: the read that takes a byte, from a settled state: no REJECT is due after it, and Sleep may be entered. -/
theorem readLinkData_of_ring (h : Settled s) {b : Byte} {rest : List Byte} (hr : s.link.ring = b :: rest) :
    readLinkData s = sleptIfQuiet { s with link := { s.link with ring := rest }, pins := { s.pins with data := b } } := by
  unfold readLinkData
  rw [hr]
  exact (closeStep_eq _).trans (congrArg sleptIfQuiet (withReject_eq_self _ h.1))

/-! ## Link Status (R4) -/

/-- R4: the fields of a status byte, each in its place. -/
theorem statusFields (power code : BitVec 2) (lost underrun available ready : Bool) :
    let status : BitVec (2 + 1 + 1 + 2 + 1 + 1) :=
      power ++ BitVec.ofBool lost ++ BitVec.ofBool underrun ++ code ++ BitVec.ofBool available ++ BitVec.ofBool ready
    status.getLsbD 0 = ready ∧ status.getLsbD 1 = available ∧ status.extractLsb' 2 2 = code ∧ status.getLsbD 4 = underrun ∧
      status.getLsbD 5 = lost ∧ status.extractLsb' 6 2 = power := by
  intro status
  have bit : ∀ i, status.getLsbD i =
      if i = 0 then ready else if i = 1 then available else if i < 4 then code.getLsbD (i - 2)
      else if i = 4 then underrun else if i = 5 then lost else power.getLsbD (i - 6) := by
    intro i
    simp only [status, BitVec.getLsbD_append, BitVec.getLsbD_ofBool, Nat.sub_sub]
    grind
  refine ⟨bit 0, bit 1, ?_, bit 4, bit 5, ?_⟩
  · refine BitVec.eq_of_getLsbD_eq fun i hi => ?_
    rw [BitVec.getLsbD_extractLsb', bit, if_neg (by omega), if_neg (by omega), if_pos (by omega), Nat.add_sub_cancel_left]
    simp [hi]
  · refine BitVec.eq_of_getLsbD_eq fun i hi => ?_
    rw [BitVec.getLsbD_extractLsb', bit, if_neg (by omega), if_neg (by omega), if_neg (by omega), if_neg (by omega),
      if_neg (by omega), Nat.add_sub_cancel_left]
    simp [hi]

/-! ## RESYNC (R23, R24) -/

/-- R23, R24, R177: a RESYNC outside Starting. -/
theorem resyncLink_eq (hp : s.power.state ≠ .starting) :
    resyncLink s = sleptIfQuiet
      { s with
        link := { s.link with holding := none, overrunMet := false, ring := [], assembler := .awaitLength false }
        requests := { slots := [], engine := if s.requests.engine = .suspended then .suspended else .idle } } := by
  have he : resyncEngine s.requests.engine = if s.requests.engine = .suspended then .suspended else .idle := by
    cases s.requests.engine <;> rfl
  unfold resyncLink
  rw [if_neg hp, he, closeStep_eq, withReject_eq_self _ (rejectionDue_of_empty rfl)]

/-! ## The notices (R158, R160) -/

/-- R156: the bits of the notice latch that an acknowledge clears. -/
theorem stickyBits_getLsbD {n : Nat} (h : n < 11) : stickyBits.getLsbD n = decide (n ≠ 4 ∧ n ≠ 5) := by
  revert n
  decide

/-- R158: an acknowledge at the low address names notices 0 to 7, at the high one 8 to 10. -/
theorem acknowledgeBits_getLsbD (high : Bool) (value : Byte) {n : Nat} (h : n < 11) :
    (acknowledgeBits high value).getLsbD n =
      if high then decide (8 ≤ n) && value.getLsbD (n - 8) else decide (n < 8) && value.getLsbD n := by
  cases high with
  | true =>
    refine (BitVec.getLsbD_append (x := value.extractLsb' 0 3) (y := (0 : BitVec 8))).trans ?_
    by_cases hn : n < 8
    · simp [hn, Nat.not_le.2 hn]
    · simp [hn, Nat.not_lt.1 hn, show n - 8 < 3 by omega]
  | false =>
    refine (BitVec.getLsbD_append (x := (0 : BitVec 3)) (y := value)).trans ?_
    by_cases hn : n < 8
    · simp [hn]
    · simp [hn]

/-- R160: a mask write at the low address gives bits 0 to 7, at the high one 8 to 10. -/
theorem writtenMask_getLsbD (high : Bool) (value : Byte) (mask : BitVec 11) {n : Nat} (h : n < 11) :
    (writtenMask high value mask).getLsbD n =
      if high then (if 8 ≤ n then value.getLsbD (n - 8) else mask.getLsbD n)
      else if n < 8 then value.getLsbD n else mask.getLsbD n := by
  cases high with
  | true =>
    refine (BitVec.getLsbD_append (x := value.extractLsb' 0 3) (y := mask.extractLsb' 0 8)).trans ?_
    by_cases hn : n < 8
    · simp [hn, Nat.not_le.2 hn]
    · simp [hn, Nat.not_lt.1 hn, show n - 8 < 3 by omega]
  | false =>
    refine (BitVec.getLsbD_append (x := mask.extractLsb' 8 3) (y := value)).trans ?_
    by_cases hn : n < 8
    · simp [hn]
    · simp [hn, show n - 8 < 3 by omega, show 8 + (n - 8) = n by omega]

/-- R158: the sticky notices after an acknowledge. -/
theorem acknowledge_getLsbD (high : Bool) (value : Byte) {n : Nat} (h : n < 11) :
    (acknowledge high value s).notices.sticky.getLsbD n =
      (s.notices.sticky.getLsbD n && !((acknowledgeBits high value).getLsbD n && decide (n ≠ 4 ∧ n ≠ 5))) := by
  simp only [acknowledge, BitVec.getLsbD_and, BitVec.getLsbD_not, stickyBits_getLsbD h, h, decide_true, Bool.true_and]

end

end Sys2Proof.Machine

namespace Sys2Proof.Proofs

open Sys2Proof.Machine

/-- Settles O20: by Starting and by the held byte. -/
theorem linkDataWriteIsHeldOrOverruns : Obligations.LinkDataWriteIsHeldOrOverruns := by
  intro value s hr
  rw [exec_linkDataWrite, portWrite_linkData hr]
  refine ⟨fun hp => ?_, fun hp hh => ?_, fun held hp hh => ?_⟩
  · rw [writeLinkData_of_starting hp]
  · rw [writeLinkData_of_empty hp hh]
  · rw [writeLinkData_of_held hp hh, overrun_eq]
    cases s.link.assembler <;> rfl

/-- Settles O21: by the ring, and the six fields of the status byte in their places. -/
theorem portReadsReturn : Obligations.PortReadsReturn := by
  intro s
  refine ⟨fun hr => ?_, fun b rest h hr => ?_, linkStatus s, rfl, ?_⟩
  · rw [exec_linkDataRead, readLinkData, hr]
    rfl
  · rw [exec_linkDataRead, readLinkData_of_ring h hr]
  · obtain ⟨h0, h1, h2, h4, h5, h6⟩ := statusFields (powerCode s.power.state) (assemblerCode s.link.assembler)
      (s.time.link == .lost) s.link.underrun (uavl s) (drdy s)
    refine ⟨(iff_of_eq (congrArg (· = true) h0)).trans ?_, (iff_of_eq (congrArg (· = true) h1)).trans ?_, h2.trans ?_, h4,
      (iff_of_eq (congrArg (· = true) h5)).trans ?_, h6.trans ?_⟩
    · simp [drdy]
    · simp [uavl]
    · cases s.link.assembler <;> rfl
    · simp
    · cases s.power.state <;> rfl

/-- Settles O22: ignored in Starting, and elsewhere the whole next state. -/
theorem resyncClearsTheLink : Obligations.ResyncClearsTheLink := by
  intro value s hr h0 h1
  rw [exec_resync, portWrite_resync hr h0 h1]
  refine ⟨fun hp => ?_, fun hp => ?_⟩
  · rw [resyncLink, if_pos hp]
  · rw [resyncLink_eq hp]

/-- Settles O23: the three resets, and each port write while RST is low. -/
theorem resetsGiveTheDefaults : Obligations.ResetsGiveTheDefaults := by
  intro s
  refine ⟨rfl, fun hr => ⟨?_, fun value h1 => ?_⟩, fun hr => ⟨fun value h1 => ?_, fun value h1 => ?_, fun value => ?_,
    fun a value ha => ⟨?_, ?_⟩, ?_⟩, rfl⟩
  · rw [exec_rstPinReset, rstChanges, hr]
    rfl
  · rw [exec_fullReset, portWrite_fullReset h1, fullResetPart, hr]
    rfl
  · rw [exec_fullReset, portWrite_fullReset h1, fullResetPart, hr]
    rfl
  · rw [exec_resync, portWrite_resync_of_rstLow hr h1]
  · rw [exec_linkDataWrite, portWrite_of_rstLow hr (by decide)]
  · rw [exec_noticeAcknowledge, portWrite_of_rstLow hr ha]
  · rw [exec_noticeMask, portWrite_of_rstLow hr ha]
  · rw [exec_endOfStarting, startingEnds, hr]
    simp

/-- Settles O25: bit by bit of the latch and of the mask. -/
theorem noticePortWritesAct : Obligations.NoticePortWritesAct := by
  intro value s
  refine ⟨fun hr => ?_, congrArg _ (portWrite_ignored (.inl rfl) value), congrArg _ (portWrite_ignored (.inr rfl) value)⟩
  refine ⟨(acknowledge false value s).notices.sticky, (acknowledge true value s).notices.sticky,
    writtenMask false value s.notices.mask, writtenMask true value s.notices.mask, ?_, ?_, ?_, ?_, fun n hn => ?_⟩
  · rw [exec_noticeAcknowledge, portWrite, hr]
    rfl
  · rw [exec_noticeAcknowledge, portWrite, hr]
    rfl
  · rw [exec_noticeMask, portWrite, hr]
    rfl
  · rw [exec_noticeMask, portWrite, hr]
    rfl
  · rw [acknowledge_getLsbD _ _ hn, acknowledge_getLsbD _ _ hn, acknowledgeBits_getLsbD _ _ hn, acknowledgeBits_getLsbD _ _ hn,
      writtenMask_getLsbD _ _ _ hn, writtenMask_getLsbD _ _ _ hn]
    refine ⟨?_, ?_, rfl, rfl⟩
    · by_cases h8 : n < 8 <;> by_cases h45 : n ≠ 4 ∧ n ≠ 5 <;> simp [h8, h45]
    · by_cases h8 : 8 ≤ n
      · simp [h8, show n ≠ 4 ∧ n ≠ 5 by omega]
      · simp [h8]

end Sys2Proof.Proofs
end

section
/-! PROOFS. The statements about the Parcel Assembler, the parcels that the part sends, and the posting (R7, R10 to R18, R20, R33). -/

namespace Sys2Proof.Machine

section
variable {s t : State}

/-! ## When the end of a step has nothing to do (R32, R177) -/

/-- R32: whether the front slot is Rejected, `front` tells where the slots that follow it are not. -/
theorem frontRejection_isSome_iff {front tail : List Slot} (hs : s.requests.slots = front ++ tail)
    (htail : ∀ slot ∈ tail, ∀ reason, slot.stage ≠ .waitingRejected reason) :
    (frontRejection s).isSome = true ↔ ∃ first rest reason, front = first :: rest ∧ first.stage = .waitingRejected reason := by
  have some_iff : ∀ x rest, s.requests.slots = x :: rest →
      ((frontRejection s).isSome = true ↔ ∃ reason, x.stage = .waitingRejected reason) := by
    intro x rest hx
    obtain ⟨stage, stored⟩ := x
    cases stage <;> simp [frontRejection, hx]
  cases front with
  | nil =>
    refine ⟨fun h => ?_, nofun⟩
    cases tail with
    | nil => simp [frontRejection, hs] at h
    | cons x rest =>
      obtain ⟨reason, hr⟩ := (some_iff x rest hs).1 h
      exact absurd hr (htail x (List.mem_cons_self ..) reason)
  | cons first rest =>
    rw [some_iff first (rest ++ tail) hs]
    simp

/-- R32: no REJECT falls due by a change behind the front slot. -/
theorem rejectionDue_of_tail {front tail tail' : List Slot} (hs : s.requests.slots = front ++ tail)
    (ht : t.requests.slots = front ++ tail') (hengine : t.requests.engine = s.requests.engine)
    (hpower : t.power.state = s.power.state) (htail : ∀ slot ∈ tail, ∀ reason, slot.stage ≠ .waitingRejected reason)
    (htail' : ∀ slot ∈ tail', ∀ reason, slot.stage ≠ .waitingRejected reason) : rejectionDue t = rejectionDue s := by
  have hfront : (frontRejection t).isSome = (frontRejection s).isSome :=
    Bool.eq_iff_iff.2 ((frontRejection_isSome_iff ht htail').trans (frontRejection_isSome_iff hs htail).symm)
  rw [rejectionDue, rejectionDue, hengine, hpower, hfront]

/-- R177: Sleep is not entered while a parcel is under way or damage is hunted through. -/
theorem sleepReady_of_code (h : assemblerCode s.link.assembler ≠ 0) : sleepReady s = false :=
  Bool.eq_false_iff.2 fun hr => h ((sleepReady_iff s).1 hr).2.2.1

/-- R32: in Run and in Doze the end of a step is the turn of a Rejected slot. -/
theorem closeStep_of_runs (h : s.power.state = .run ∨ s.power.state = .doze) : closeStep s = withReject s := by
  have hp : (withReject s).power = s.power := by rw [withReject_requests]
  rw [closeStep_eq, sleptIfQuiet_eq_self]
  rcases h with h | h <;> simp [sleepReady, hp, h]

/-- R177: where no REJECT is due the end of a step is the entry to Sleep. -/
theorem closeStep_of_no_rejection (h : rejectionDue s = false) : closeStep s = sleptIfQuiet s := by
  rw [closeStep_eq, withReject_eq_self s h]

/-! ## The assembler -/

theorem exec_byteTaken : exec .byteTaken s = .next (takingStep s) := rfl

/-- R7: with no byte held, or an assembler that is not able, no byte is taken. -/
theorem takingStep_of_unable (h : s.link.holding = none ∨ ableToTake s = false) : takingStep s = s := by
  unfold takingStep
  split
  · rfl
  next b hb =>
    have ha := h.resolve_left (by simp [hb])
    rw [ha]
    rfl

/-- R14: what an illegal Length does. -/
theorem takeLength_of_illegal (preMark : Bool) {b : Byte} (h : ¬ (3 ≤ b.toNat ∧ b.toNat ≤ 63)) :
    takeLength preMark b s =
      { s with
        link := { s.link with assembler := .hunting 20 }
        notices := { s.notices with sticky := s.notices.sticky ||| BitVec.twoPow 11 2 }
        counters := { s.counters with framing := counted s.counters.framing } } := by
  unfold takeLength
  rw [if_neg fun hl => h ((legalLength_iff b).1 hl), ← saturate_eq_counted]
  rfl

/-- R13, R178: what a legal Length does. -/
theorem takeLength_of_legal (preMark : Bool) {b : Byte} (h : 3 ≤ b.toNat ∧ b.toNat ≤ 63) :
    takeLength preMark b s =
      abandonSleep { s with
        link := { s.link with assembler := .collecting b.toNat b preMark 20 }
        requests := { s.requests with slots := s.requests.slots ++ [{ stage := .filling, stored := [] }] } } := by
  unfold takeLength
  rw [if_pos ((legalLength_iff b).2 h)]
  rfl

/-- R12, R16: the step that takes the last byte of a parcel, up to its end. -/
theorem handleByte_of_last {b sum : Byte} {gap : Nat} {damaged : Bool} {front : List Slot} {stored : List Byte}
    (ha : s.link.assembler = .collecting 1 sum damaged gap)
    (hs : s.requests.slots = front ++ [{ stage := .filling, stored := stored }]) (hfront : ∀ slot ∈ front, slot.stage ≠ .filling)
    (hl : stored ≠ []) :
    handleByte b s =
      match rejection (sum + b) damaged (stored.getD 0 0) with
      | none => goodParcel
          { s with
            link := { s.link with assembler := .awaitLength false }
            requests := { s.requests with slots := front ++ [{ stage := .waitingGood, stored := stored ++ [b] }] } }
      | some reason =>
          { s with
            link := { s.link with assembler := .awaitLength false }
            requests := { s.requests with slots := front ++ [{ stage := .waitingRejected reason, stored := stored ++ [b] }] }
            counters := { s.counters with reject := counted s.counters.reject } } := by
  have hkind : (stored ++ [b]).getD 0 0 = stored.getD 0 0 := by
    cases stored with
    | nil => exact absurd rfl hl
    | cons => rfl
  unfold handleByte takeCollecting
  rw [ha]
  dsimp only
  rw [if_pos (Nat.le_refl 1), storeByte_slots hs hfront, completeParcel_eq (front := front) (stored := stored ++ [b]) rfl hfront, hkind]
  rfl

/-- R16, R169: a completed Good parcel makes the link Live and restarts the watch. -/
theorem goodParcel_eq (s : State) :
    goodParcel s =
      { s with time := { s.time with
          link := .live
          watchCount :=
            if s.time.watchPeriod = 0 then s.time.watchCount else BitVec.ofNat 16 (s.time.watchPeriod.toNat * 100) } } := by
  unfold goodParcel
  rw [loadWatch_eq]
  by_cases h : s.time.watchPeriod = 0
  · rw [if_neg fun hc => hc.1 h, if_pos h]
  · rw [if_pos ⟨h, rfl⟩, if_neg h]

/-! ## The posting (R33) -/

theorem exec_posting : exec .posting s = .next (postingStep s) := rfl

/-- R21, R33: a held answer is posted where the ring has room for it, and only then. -/
theorem postable_of_replying {a : Answer} (h : s.requests.engine = .replying a) :
    postable s = if s.link.ring.length + a.bytes.length ≤ 192 then some a else none := by
  unfold postable
  rw [h]
  rfl

theorem postable_of_not_replying (h : ∀ a, s.requests.engine ≠ .replying a) : postable s = none := by
  unfold postable
  split
  next a ha => exact absurd ha (h a)
  all_goals rfl

end

end Sys2Proof.Machine

namespace Sys2Proof.Proofs

open Sys2Proof.Machine

/-- Settles O27: by the Length, and by the power state where it is legal. -/
theorem lengthByteIsTaken : Obligations.LengthByteIsTaken := by
  intro b preMark s h hb ha hroom hp begun
  have htake : exec .byteTaken s = .next (closeStep (takeLength preMark b (emptyHolding s))) := by
    rw [exec_byteTaken_of_able s b hb (by rcases hp with e | e | e <;> simp [e]) (.inr hroom)]
    unfold handleByte
    rw [emptyHolding_link, ha]
  have noRejection : rejectionDue begun = false :=
    (rejectionDue_of_tail (s := s) (t := begun) (List.append_nil _).symm rfl rfl rfl nofun (by simp)).trans h.1
  refine ⟨fun hl hpend => ?_, fun hl hpend => ?_, fun hl => ?_⟩
  · have hbegun : takeLength preMark b (emptyHolding s) = begun :=
      (takeLength_of_legal preMark hl).trans (if_neg hpend)
    rw [htake, hbegun, closeStep_of_settled begun ⟨noRejection, sleepReady_of_code nofun⟩]
  · have hbegun : takeLength preMark b (emptyHolding s) =
        { begun with power := { s.power with state := .run }, requests := { begun.requests with engine := .idle } } :=
      (takeLength_of_legal preMark hl).trans (if_pos hpend)
    rw [htake, hbegun, closeStep_of_runs (.inl rfl)]
  · rw [htake, takeLength_of_illegal preMark hl]
    exact congrArg _ (closeStep_of_settled _ ⟨h.1, sleepReady_of_code nofun⟩)

/-- Settles O28: a byte is stored in Collecting, discarded in Hunting, and left where it is elsewhere. -/
theorem bytesAreCollectedDiscardedOrWait : Obligations.BytesAreCollectedDiscardedOrWait := by
  intro b s h
  refine ⟨fun toCome gap sum damaged front stored hb hp ha hmore hs hfront => ?_, fun gap hb hp ha => ?_, fun hno => ?_⟩
  · have noRejection : ∀ more, ∀ slot ∈ [({ stage := .filling, stored := more } : Slot)], ∀ reason,
        slot.stage ≠ .waitingRejected reason := by simp
    rw [exec_byteTaken_of_able s b hb (by rcases hp with e | e | e <;> simp [e]) (.inl (by rw [ha]; nofun))]
    unfold handleByte takeCollecting
    rw [emptyHolding_link, ha]
    dsimp only
    rw [if_neg (by omega), storeByte_slots (s := emptyHolding s) hs hfront]
    refine congrArg _ (closeStep_of_settled _ ⟨?_, sleepReady_of_code nofun⟩)
    refine Eq.trans (rejectionDue_of_tail (s := s) (tail' := [{ stage := .filling, stored := stored ++ [b] }]) hs ?_ rfl rfl
      (noRejection _) (noRejection _)) h.1
    rfl
  · rw [exec_byteTaken_of_able s b hb (by rcases hp with e | e | e <;> simp [e]) (.inl (by rw [ha]; nofun))]
    unfold handleByte
    rw [emptyHolding_link, ha]
    exact congrArg _ (closeStep_of_settled _ ⟨h.1, sleepReady_of_code nofun⟩)
  · rw [exec_byteTaken, takingStep_of_unable]
    refine hno.imp_right fun hno => Bool.eq_false_iff.2 fun hable => ?_
    obtain ⟨hp, hroom⟩ := (ableToTake_iff s).1 hable
    rcases hno with hst | hsl | ⟨hfull, preMark, ha⟩
    · rcases hp with e | e | e <;> cases hst.symm.trans e
    · rcases hp with e | e | e <;> cases hsl.symm.trans e
    · rw [ha] at hroom
      exact hroom.elim (fun hc => hc rfl) fun hc => by omega

/-- Settles O29: by the reason that applies to the complete parcel. -/
theorem lastByteCompletesTheParcel : Obligations.LastByteCompletesTheParcel := by
  intro b sum gap damaged front stored s h hb hp ha hs hfront hl ended refused
  have hlast := handleByte_of_last (s := emptyHolding s) (b := b) ha hs hfront (by rintro rfl; simp at hl)
  have htake : exec .byteTaken s = .next (closeStep (handleByte b (emptyHolding s))) :=
    exec_byteTaken_of_able s b hb (by rcases hp with e | e | e <;> simp [e]) (.inl (by rw [ha]; nofun))
  rw [hlast] at htake
  have hrefused : ∀ reason, rejection (sum + b) damaged (stored.getD 0 0) = some reason →
      exec .byteTaken s = .next (refused reason) := by
    intro reason hr
    rw [htake, hr]
    exact congrArg _ (closeStep_eq _)
  refine ⟨fun hsum => hrefused _ ?_, fun hsum hd => hrefused _ ?_, fun hsum hd hk => hrefused _ ?_, fun hsum hd hk => ?_⟩
  · rw [rejection, if_pos hsum]
  · rw [rejection, if_neg (not_not.2 hsum), if_pos hd]
  · rw [rejection, if_neg (not_not.2 hsum), hd, if_neg nofun, if_pos ((direction_iff _).2 hk)]
  · have hgood : rejection (sum + b) damaged (stored.getD 0 0) = none := by
      rw [rejection, if_neg (not_not.2 hsum), hd, if_neg nofun, if_neg fun hk' => by have := (direction_iff _).1 hk'; omega]
    rw [htake, hgood]
    dsimp only
    rw [goodParcel_eq]
    refine congrArg _ (closeStep_of_no_rejection ?_)
    refine Eq.trans (rejectionDue_of_tail (s := s) (tail' := [{ stage := .waitingGood, stored := stored ++ [b] }]) hs ?_ rfl rfl
      (by simp) (by simp)) h.1
    rfl

/-- Settles O30: the layout is the definition, the check makes the sum 0, and 63 is the largest Length. -/
theorem sentParcelsAreWellFormed : Obligations.SentParcelsAreWellFormed := by
  intro kind tag payload hl
  refine ⟨0 - byteSum (BitVec.ofNat 8 (payload.length + 3) :: kind :: tag :: payload), rfl, byteSum_parcel kind tag payload, ?_⟩
  rw [parcel_length]
  simp only [parcel, List.cons_append, List.headD_cons, BitVec.toNat_ofNat]
  omega

/-- Settles O33: by the engine and by the room in the ring. -/
theorem postingAppendsTheWholeAnswer : Obligations.PostingAppendsTheWholeAnswer := by
  intro s
  refine ⟨fun a ha hfull => ?_, fun hno => ?_, fun a front rest ha hs hroom he hp => ?_⟩
  · rw [exec_posting, postingStep, postable_of_replying ha, if_neg (by omega)]
  · rw [exec_posting, postingStep, postable_of_not_replying hno]
  · rw [exec_posting, postingStep, postable_of_replying ha, if_pos hroom]
    dsimp only
    rw [he, postEffect, closeStep_of_runs (s := postBytes a s) hp, postBytes, hs]
    rfl

end Sys2Proof.Proofs
end

section
/-! PROOFS. The statement about every request of the catalogue (R11, R30, R36, R37), and the state after a power-on reset (R26, R181). -/

namespace Sys2Proof.Machine

/-- Section 2.3: the outcome codes are 0 to 9, DONE is 0 and UNKNOWN_KIND is 1. -/
theorem outcomeByte_facts (code : OutcomeCode) :
    (outcomeByte code).toNat ≤ 9 ∧ (outcomeByte code = 0 → code = .done) ∧ (outcomeByte code = 1 → code = .unknownKind) ∧
      (code = .invalidChain → outcomeByte code = 8) := by
  cases code <;> decide

/-- R64: a table of default views. -/
theorem defaultViews_table (t : ViewTable) (i : Fin 4) : (defaultViews.table t)[i] = defaultView := by
  cases t
  · exact Vector.getElem_replicate i.isLt
  · exact Vector.getElem_replicate i.isLt

/-- R124: the pool after a reset. -/
theorem defaultChains_pool (i : Fin 32) : defaultChains.pool[i] = .free := Vector.getElem_replicate i.isLt

/-- R138: no key is reported after a reset. -/
theorem downCount_reset : downCount State.reset = 0 := downCount_allKeysIdle State.reset

end Sys2Proof.Machine

namespace Sys2Proof.Proofs

open Sys2Proof.Machine

/-- Settles O31: the body of the request either fails, or makes an effect within what a request may change. -/
theorem everyRequestAnswersOnce : Obligations.EveryRequestAnswersOnce := by
  intro c kind tag payload s hc hd
  rw [exec_of_requestCode hc, executeKind_of_due hd]
  have hk := requestBody_keeps hc payload (beginExecution s)
  cases hv : requestBody c payload (beginExecution s) with
  | fail code result =>
    rw [hv] at hk
    obtain ⟨notDone, notUnknown, hresult, hlen⟩ := hk
    obtain ⟨hmax, hzero, hone, hchain⟩ := outcomeByte_facts code
    exact ⟨_, outcomeByte code, result, .nothing, rfl, rfl, hmax, fun e => notUnknown (hone e), hlen, fun _ => ⟨rfl, rfl⟩,
      fun _ he => hresult fun e => he (hchain e), rfl, rfl, rfl, rfl, rfl, rfl⟩
  | done after result effect =>
    rw [hv] at hk
    obtain ⟨keeps, hlen, _⟩ := hk
    refine ⟨_, 0, result, effect, rfl, ?_, by decide, by decide, hlen, fun e => absurd rfl e, fun e => absurd rfl e, keeps.link,
      keeps.pins, keeps.pending, keeps.ticks, keeps.frameCounter, keeps.snapshot⟩
    simp only [answeredBy, keeps.requests, replyHeld_beginExecution]

/-- Settles O24: each default, in the order of the blocks. -/
theorem resetStateHoldsTheDefaults : Obligations.ResetStateHoldsTheDefaults := by
  unfold Obligations.ResetStateHoldsTheDefaults
  intro s
  have record : viewRecordBytes defaultViewRecord = [0, 0, 0, 8, 8, 0, 0, 0, 0, 255, 127, 0, 0, 0, 0] := by decide
  refine ⟨⟨rfl, rfl⟩, ⟨rfl, rfl, rfl, rfl⟩, ⟨rfl, rfl⟩, rfl, fun cell => ⟨rfl, rfl, rfl⟩, ⟨rfl, rfl⟩, fun t i => ?_, ⟨rfl, rfl⟩,
    ⟨rfl, rfl, rfl, rfl, rfl, rfl⟩, ⟨rfl, rfl, rfl, rfl, fun i => ?_⟩, ⟨rfl, rfl, rfl, rfl, rfl, rfl⟩,
    ⟨defaultChains_pool, rfl, rfl, rfl, rfl⟩, rfl, fun k => ?_, ⟨rfl, rfl, rfl, rfl, rfl⟩, ⟨rfl, rfl⟩, ?_,
    ⟨rfl, rfl, rfl, rfl, rfl, rfl, rfl, rfl, rfl⟩⟩
  · have e := defaultViews_table t i
    exact ⟨(congrArg (fun v => viewRecordBytes v.record) e).trans record, congrArg View.verticalCount e,
      congrArg View.horizontalCount e⟩
  · have e : (Vector.replicate 4 defaultViewRecord)[i] = defaultViewRecord := Vector.getElem_replicate i.isLt
    exact ⟨(congrArg viewRecordBytes e).trans record, (congrArg viewRecordBytes e).trans record⟩
  · have hstate : (Vector.replicate 64 KeyState.idle)[k] = .idle := Vector.getElem_replicate k.isLt
    have htable : defaultKeyTable[k] = { enabled := true, repeats := decide (k.val < 60), wakes := false } :=
      Vector.getElem_ofFn k.isLt
    refine ⟨hstate, htable.trans ?_⟩
    simp only [Nat.lt_succ_iff]
  · decide

/-- Settles O56: each invariant in turn. -/
theorem resetMeetsTheInvariants : Obligations.ResetMeetsTheInvariants := by
  obtain ⟨link, chains⟩ := (linkGood_and_chainsAwake_iff State.reset).2 (resetPart_together .powerOn State.reset)
  have pool : ∀ i : Fin 32, State.reset.chains.pool[i] = .free := defaultChains_pool
  refine ⟨⟨by decide, by decide, nofun, by decide, fun i d h => ?_⟩, ⟨Nat.zero_le _, ?_, ?_⟩, fun t i => ?_, link, chains, ⟨?_, ?_⟩,
    ⟨⟨Nat.zero_le _, Nat.zero_le _, List.nodup_nil, nofun, List.Pairwise.nil⟩, nofun, fun i h d e => ?_⟩⟩
  · rw [pool i] at h
    cases h
  · rw [downCount_reset]
    exact Nat.zero_le _
  · rw [downCount_reset]
    exact Nat.zero_le _
  · have e : (State.reset.views.table t)[i] = defaultView := defaultViews_table t i
    rw [e]
    exact ⟨by decide, rfl, rfl⟩
  · exact ⟨by decide, by decide, by decide, by decide, by decide, by decide, by decide, by decide, by decide, by decide, by decide,
      by decide, by decide⟩
  · exact ⟨by decide, by decide, by decide, by decide, by decide⟩
  · rw [pool i] at e
    cases e

end Sys2Proof.Proofs
end

section
/-! PROOFS. The statement about the ticks (R15, R17, R18, R131, R164, R167, R169, R180): each timer is served on its own part of the state, so that
the order of the five steps of R164 may be followed one by one. -/

namespace Sys2Proof.Machine

section
variable {s : State}

/-! ## The gap timer (R15, R17, R18) -/

/-- R13, R14: the gap timer either does not run or holds at least 1. -/
def gapPositive : Assembler → Prop
  | .awaitLength _ => True
  | .collecting _ _ _ gap => 1 ≤ gap
  | .hunting gap => 1 ≤ gap

theorem gapPositive_of_good {a : Assembler} (h : a.good) : gapPositive a := by
  cases a with
  | awaitLength preMark => trivial
  | collecting toCome sum damaged gap => exact h.2.2.1
  | hunting gap => exact h.1

theorem gapPositive_of_runs {a : Assembler} (h : gapRuns a) : gapPositive a := by
  cases a with
  | awaitLength preMark => trivial
  | collecting toCome sum damaged gap => exact Nat.le_of_lt h
  | hunting gap => exact Nat.le_of_lt h

theorem gapServed_of_runs (h : gapRuns s.link.assembler) (t : State) : gapServed s t = t := by
  unfold gapServed
  cases ha : s.link.assembler with
  | awaitLength preMark => rfl
  | collecting toCome sum damaged gap =>
    rw [ha] at h
    exact if_neg (Nat.ne_of_gt h)
  | hunting gap =>
    rw [ha] at h
    exact if_neg (Nat.ne_of_gt h)

theorem gapServed_of_collecting {toCome : Nat} {sum : Byte} {damaged : Bool} (h : s.link.assembler = .collecting toCome sum damaged 1)
    (t : State) : gapServed s t =
      { t with
        link := { t.link with assembler := leftWith s }
        requests := { t.requests with slots := t.requests.slots.filter fun slot => slot.stage ≠ .filling }
        notices := { t.notices with sticky := t.notices.sticky ||| BitVec.twoPow 11 2 }
        counters := { t.counters with framing := counted t.counters.framing } } := by
  unfold gapServed
  rw [h]
  rfl

theorem gapServed_of_hunting (h : s.link.assembler = .hunting 1) (t : State) :
    gapServed s t = { t with link := { t.link with assembler := leftWith s } } := by
  unfold gapServed
  rw [h]
  rfl

/-- R17, R18: a timeout changes the link, the queue, the sticky notices and the counters alone. -/
theorem gapServed_eq (s t : State) :
    ∃ link slots sticky counters, gapServed s t =
      { t with
        link := link, requests := { t.requests with slots := slots }
        notices := { t.notices with sticky := sticky }, counters := counters } := by
  unfold gapServed
  split
  · exact ⟨t.link, t.requests.slots, t.notices.sticky, t.counters, rfl⟩
  · split
    · exact ⟨_, _, _, _, rfl⟩
    · exact ⟨t.link, t.requests.slots, t.notices.sticky, t.counters, rfl⟩
  · split
    · exact ⟨_, t.requests.slots, t.notices.sticky, t.counters, rfl⟩
    · exact ⟨t.link, t.requests.slots, t.notices.sticky, t.counters, rfl⟩

@[simp] theorem gapServed_time (s t : State) : (gapServed s t).time = t.time := by
  obtain ⟨link, slots, sticky, counters, e⟩ := gapServed_eq s t
  rw [e]

@[simp] theorem gapServed_power (s t : State) : (gapServed s t).power = t.power := by
  obtain ⟨link, slots, sticky, counters, e⟩ := gapServed_eq s t
  rw [e]

@[simp] theorem gapServed_scanner (s t : State) : (gapServed s t).scanner = t.scanner := by
  obtain ⟨link, slots, sticky, counters, e⟩ := gapServed_eq s t
  rw [e]

@[simp] theorem gapServed_panel (s t : State) : (gapServed s t).panel = t.panel := by
  obtain ⟨link, slots, sticky, counters, e⟩ := gapServed_eq s t
  rw [e]

@[simp] theorem gapServed_engine (s t : State) : (gapServed s t).requests.engine = t.requests.engine := by
  obtain ⟨link, slots, sticky, counters, e⟩ := gapServed_eq s t
  rw [e]

/-- A timeout goes on beside a change of the scanner. -/
theorem gapServed_withScanner (s t : State) (scanner : Scanner) :
    gapServed s { t with scanner := scanner } = { gapServed s t with scanner := scanner } := by
  unfold gapServed
  split
  · rfl
  · split <;> rfl
  · split <;> rfl

/-- A timeout goes on beside a change of the timebase. -/
theorem gapServed_withTime (s t : State) (time : Timebase) :
    gapServed s { t with time := time } = { gapServed s t with time := time } := by
  unfold gapServed
  split
  · rfl
  · split <;> rfl
  · split <;> rfl

/-- R164, step 2: the gap timer is counted, and its end follows. -/
theorem serveGap_eq (h : gapPositive s.link.assembler) :
    serveGap (advanceTick s) =
      gapServed s { advanceTick s with link := { s.link with assembler := gapCounted s.link.assembler } } := by
  unfold serveGap gapServed
  rw [advanceTick_link]
  cases ha : s.link.assembler with
  | awaitLength preMark =>
    dsimp only [gapCounted]
    rw [← ha]
    rfl
  | collecting toCome sum damaged gap =>
    rw [ha] at h
    have h : 1 ≤ gap := h
    by_cases hg : gap = 1
    · dsimp only
      rw [if_pos (by omega), if_pos hg, ← saturate_eq_counted]
      rfl
    · dsimp only
      rw [if_neg (by omega), if_neg hg]
      rfl
  | hunting gap =>
    rw [ha] at h
    have h : 1 ≤ gap := h
    by_cases hg : gap = 1
    · dsimp only
      rw [if_pos (by omega), if_pos hg]
      rfl
    · dsimp only
      rw [if_neg (by omega), if_neg hg]
      rfl

/-! ## The pass timer (R131) -/

/-- R94: the power states in which passes fall due. -/
theorem framesRun_iff (p : PowerState) : framesRun p = true ↔ p = .run ∨ p = .sleepPending := by
  cases p <;> simp [framesRun]

/-- R131, R164, step 3: the scanner after the pass timer is served. -/
theorem servePassTimer_eq (s : State) :
    servePassTimer s = { s with scanner :=
      if s.power.state = .run ∨ s.power.state = .sleepPending then
        if s.scanner.passTimer ≤ 1 then
          { s.scanner with passTimer := s.scanner.config.period, passesDue := s.scanner.passesDue + 1 }
        else { s.scanner with passTimer := s.scanner.passTimer - 1 }
      else s.scanner } := by
  unfold servePassTimer
  by_cases h : framesRun s.power.state = true
  · rw [if_pos h, if_pos ((framesRun_iff _).1 h)]
    split <;> rfl
  · rw [if_neg h, if_neg fun hp => h ((framesRun_iff _).2 hp)]

/-- A timeout and the pass timer do not touch one another. -/
theorem servePassTimer_gapServed (s t : State) : servePassTimer (gapServed s t) = gapServed s (servePassTimer t) := by
  rw [servePassTimer_eq, servePassTimer_eq]
  refine Eq.trans ?_ (gapServed_withScanner s t _).symm
  simp only [gapServed_power, gapServed_scanner]

/-! ## The alarm (R167) -/

/-- R167: the timebase after a tick whose alarm does not expire. -/
def alarmCounted (t : Timebase) : Timebase :=
  { t with alarmCount := if t.alarmMode = .off then t.alarmCount else t.alarmCount - 1 }

/-- R164, step 4: the alarm is counted, and its expiry follows, in a part with the alarm and the power state of `s`. -/
theorem serveAlarm_eq {u : State} (hpower : u.power.state = s.power.state)
    (hmode : u.time.alarmMode = s.time.alarmMode) (hcount : u.time.alarmCount = s.time.alarmCount)
    (hperiod : u.time.alarmPeriod = s.time.alarmPeriod) (hwake : u.time.alarmWake = s.time.alarmWake) :
    serveAlarm u = alarmServed s { u with time := alarmCounted u.time } := by
  unfold serveAlarm alarmServed alarmCounted
  rw [← hpower, ← hwake, ← hperiod]
  simp only [alarmAtEnd, ← hmode, ← hcount]
  by_cases hoff : u.time.alarmMode = .off
  · rw [if_pos hoff, if_neg fun h => h.1 hoff, if_pos hoff]
  · have hruns : alarmRunsOut u.time = decide (u.time.alarmCount = 1) := by
      rw [alarmRunsOut, bne_iff_ne.2 hoff, Bool.true_and]
      rfl
    rw [if_neg hoff, hruns, if_neg hoff]
    by_cases hone : u.time.alarmCount = 1
    · have hexp : expiredAlarm u.time =
          { u.time with
            alarmMode := if u.time.alarmMode = .periodic then .periodic else .off
            alarmPeriod := if u.time.alarmMode = .periodic then u.time.alarmPeriod else 0
            alarmCount := if u.time.alarmMode = .periodic then u.time.alarmPeriod else 0 } := by
        cases hm : u.time.alarmMode with
        | off => exact absurd hm hoff
        | oneShot => simp [expiredAlarm, hm]
        | periodic => simp [expiredAlarm, hm]
      rw [if_pos (decide_eq_true hone), if_pos ⟨hoff, hone⟩, alarmExpires]
      split
      next hd =>
        rw [returnToRun_eq, hexp, raise_power, raise_time, hd.1]
        rfl
      next =>
        rw [hexp]
        rfl
    · rw [if_neg (by simpa using hone), if_neg fun h => hone h.2]

/-- R167: an expiry changes the sticky notices, the power state, the scanner, the frames and the alarm alone. -/
theorem alarmServed_eq (s t : State) :
    ∃ sticky power scanner frames mode period count, alarmServed s t =
      { t with
        notices := { t.notices with sticky := sticky }, power := power, scanner := scanner, frames := frames
        time := { t.time with alarmMode := mode, alarmPeriod := period, alarmCount := count } } := by
  unfold alarmServed
  split
  · dsimp only
    split
    · exact ⟨_, _, _, _, _, _, _, rfl⟩
    · exact ⟨_, t.power, t.scanner, t.frames, _, _, _, rfl⟩
  · exact ⟨t.notices.sticky, t.power, t.scanner, t.frames, t.time.alarmMode, t.time.alarmPeriod, t.time.alarmCount, rfl⟩

@[simp] theorem alarmServed_panel (s t : State) : (alarmServed s t).panel = t.panel := by
  obtain ⟨sticky, power, scanner, frames, mode, period, count, e⟩ := alarmServed_eq s t
  rw [e]

@[simp] theorem alarmServed_requests (s t : State) : (alarmServed s t).requests = t.requests := by
  obtain ⟨sticky, power, scanner, frames, mode, period, count, e⟩ := alarmServed_eq s t
  rw [e]

/-- R176: an alarm returns the part to Run from Doze alone. -/
theorem alarmServed_power (s t : State) :
    (alarmServed s t).power.state = t.power.state ∨ (s.power.state = .doze ∧ (alarmServed s t).power.state = .run) := by
  unfold alarmServed
  split
  · dsimp only
    split
    next h => exact .inr ⟨h.1, rfl⟩
    next => exact .inl rfl
  · exact .inl rfl

/-- An expiry of the alarm goes on beside a change of the watch count, and leaves the watch as it was. -/
theorem alarmServed_withWatchCount (s t : State) (count : Word) :
    alarmServed s { t with time := { t.time with watchCount := count } } =
      { alarmServed s t with time := { (alarmServed s t).time with watchCount := count } } := by
  unfold alarmServed
  split
  · dsimp only
    split <;> rfl
  · rfl

theorem alarmServed_watch (s t : State) :
    (alarmServed s t).time.watchPeriod = t.time.watchPeriod ∧ (alarmServed s t).time.link = t.time.link ∧
      (alarmServed s t).time.watchCount = t.time.watchCount ∧ (alarmServed s t).time.watchAction = t.time.watchAction := by
  obtain ⟨sticky, power, scanner, frames, mode, period, count, e⟩ := alarmServed_eq s t
  rw [e]
  exact ⟨rfl, rfl, rfl, rfl⟩

/-! ## The link watch (R169) -/

/-- R169: the display mode after the fallback action that shows. -/
theorem shownPanel_eq (p : Panel) :
    { p with mode := fallbackMode p.mode } =
      if FallbackAction.fallbackAndShow = .fallbackAndShow ∧ (p.mode = .off ∨ p.mode = .blank) then { p with mode := .showing } else p := by
  obtain ⟨columns, rows, rate, contrast, mode, snapshot, drive⟩ := p
  cases mode <;> simp [fallbackMode]

/-- R164, step 5: the watch is counted, and its expiry follows, in a part with the watch and the display mode of `s`. -/
theorem serveWatch_eq {u : State} (hperiod : u.time.watchPeriod = s.time.watchPeriod) (hlink : u.time.link = s.time.link)
    (hcount : u.time.watchCount = s.time.watchCount) (haction : u.time.watchAction = s.time.watchAction)
    (hmode : u.panel.mode = s.panel.mode) :
    serveWatch u = watchServed s { u with time := { u.time with watchCount :=
      if s.time.watchPeriod ≠ 0 ∧ s.time.link = .live then s.time.watchCount - 1 else s.time.watchCount } } := by
  unfold serveWatch watchServed
  have hruns : watchRuns u.time = decide (s.time.watchPeriod ≠ 0 ∧ s.time.link = .live) := by
    rw [watchRuns, hperiod, hlink, Bool.eq_iff_iff]
    simp
  rw [hruns]
  by_cases hr : s.time.watchPeriod ≠ 0 ∧ s.time.link = .live
  · rw [if_pos (decide_eq_true hr), if_pos hr, hcount]
    by_cases hone : s.time.watchCount = 1
    · have hzero : (1 : Word) - 1 = 0 := by decide
      rw [if_pos hone, if_pos ⟨hr.1, hr.2, hone⟩, watchExpires, haction, hone, hzero, ← hmode]
      cases hact : s.time.watchAction with
      | none => rfl
      | fallback => rfl
      | fallbackAndShow =>
        rw [if_neg nofun, ← shownPanel_eq]
        rfl
    · rw [if_neg hone, if_neg fun h => hone h.2.2]
  · rw [if_neg (by simpa using hr), if_neg hr, if_neg fun h => hr ⟨h.1, h.2.1⟩, ← hcount]

/-- R169: an expiry of the watch leaves the queue, the engine and the power state. -/
theorem watchServed_requests (s t : State) : (watchServed s t).requests = t.requests := by
  unfold watchServed
  split <;> rfl

theorem watchServed_power (s t : State) : (watchServed s t).power = t.power := by
  unfold watchServed
  split <;> rfl

/-! ## The whole tick -/

/-- The part with the gap timer and the pass timer counted, at any timebase: `ticked s` is it at the timebase that the tick leaves. -/
def tickedAt (s : State) (time : Timebase) : State := { ticked s with time := time }

/-- R164, step 1: the timebase with the tick counter advanced. -/
def clockTicked (t : Timebase) : Timebase := { t with ticks := t.ticks + 1 }

/-- R164: the five steps, up to the end of the step. -/
theorem tick_served (hg : gapPositive s.link.assembler) :
    serveWatch (serveAlarm (servePassTimer (serveGap (advanceTick s)))) =
      watchServed s (alarmServed s (gapServed s (ticked s))) := by
  have hpass : servePassTimer (serveGap (advanceTick s)) = gapServed s (tickedAt s (clockTicked s.time)) := by
    rw [serveGap_eq hg, servePassTimer_gapServed, servePassTimer_eq]
    rfl
  have halarm : serveAlarm (gapServed s (tickedAt s (clockTicked s.time))) =
      alarmServed s (gapServed s (tickedAt s (alarmCounted (clockTicked s.time)))) := by
    have time : (gapServed s (tickedAt s (clockTicked s.time))).time = clockTicked s.time := by
      rw [gapServed_time]
      rfl
    have power : (gapServed s (tickedAt s (clockTicked s.time))).power = s.power := by
      rw [gapServed_power]
      rfl
    have e := serveAlarm_eq (s := s) (u := gapServed s (tickedAt s (clockTicked s.time)))
      (by rw [power]) (by rw [time]; rfl) (by rw [time]; rfl) (by rw [time]; rfl) (by rw [time]; rfl)
    rw [e, time, ← gapServed_withTime]
    rfl
  have hwatch : serveWatch (alarmServed s (gapServed s (tickedAt s (alarmCounted (clockTicked s.time))))) =
      watchServed s (alarmServed s (gapServed s (ticked s))) := by
    obtain ⟨hperiod, hlink, hcount, haction⟩ := alarmServed_watch s (gapServed s (tickedAt s (alarmCounted (clockTicked s.time))))
    rw [gapServed_time] at hperiod hlink hcount haction
    have hmode : (alarmServed s (gapServed s (tickedAt s (alarmCounted (clockTicked s.time))))).panel.mode = s.panel.mode := by
      rw [alarmServed_panel, gapServed_panel]
      rfl
    rw [serveWatch_eq hperiod hlink hcount haction hmode, ← alarmServed_withWatchCount, gapServed_time, ← gapServed_withTime]
    rfl
  rw [hpass, halarm, hwatch]

/-- R32: what stays of a queue whose Filling slot, if any, stands last has a Rejected slot in front only where the queue had. -/
theorem frontRejection_of_filter {t : State} (hlast : ∀ slot ∈ s.requests.slots.dropLast, slot.stage ≠ .filling)
    (ht : t.requests.slots = s.requests.slots.filter fun slot => slot.stage ≠ .filling)
    (h : (frontRejection t).isSome = true) : (frontRejection s).isSome = true := by
  cases hs : s.requests.slots with
  | nil => simp [frontRejection, ht, hs] at h
  | cons first rest =>
    rw [hs] at hlast ht
    by_cases hf : first.stage = .filling
    · cases rest with
      | nil => simp [frontRejection, ht, hf] at h
      | cons next rest => exact absurd hf (hlast first (List.mem_cons_self ..))
    · rw [List.filter_cons_of_pos (by simpa using hf)] at ht
      simpa [frontRejection, ht, hs] using h

/-- R17: what the gap stage leaves in front was in front before it. -/
theorem frontRejection_of_gapServed (hlast : ∀ toCome sum damaged, s.link.assembler = .collecting toCome sum damaged 1 →
      ∀ slot ∈ s.requests.slots.dropLast, slot.stage ≠ .filling)
    (hfront : (frontRejection (gapServed s (ticked s))).isSome = true) : (frontRejection s).isSome = true := by
  have hticked : (frontRejection (ticked s)).isSome = (frontRejection s).isSome := rfl
  cases ha : s.link.assembler with
  | awaitLength preMark =>
    rw [gapServed_of_runs (by rw [ha]; trivial)] at hfront
    exact hfront
  | collecting toCome sum damaged gap =>
    by_cases hg : gap = 1
    · subst hg
      rw [gapServed_of_collecting ha] at hfront
      exact frontRejection_of_filter (hlast _ _ _ ha) rfl hfront
    · have e : gapServed s (ticked s) = ticked s := by
        unfold gapServed
        rw [ha]
        exact if_neg hg
      rwa [e, hticked] at hfront
  | hunting gap =>
    have e : (gapServed s (ticked s)).requests = s.requests := by
      unfold gapServed
      rw [ha]
      dsimp only
      split <;> rfl
    unfold frontRejection at hfront ⊢
    rwa [e] at hfront

/-- R32: a tick makes no REJECT fall due. -/
theorem rejectionDue_tick (h : Settled s) (hlast : ∀ toCome sum damaged, s.link.assembler = .collecting toCome sum damaged 1 →
      ∀ slot ∈ s.requests.slots.dropLast, slot.stage ≠ .filling) :
    rejectionDue (watchServed s (alarmServed s (gapServed s (ticked s)))) = false := by
  refine Bool.eq_false_iff.2 fun hr => ?_
  simp only [rejectionDue, watchServed_requests, watchServed_power, alarmServed_requests, gapServed_engine, Bool.and_eq_true,
    beq_iff_eq] at hr
  obtain ⟨⟨hidle, hruns⟩, hfront⟩ := hr
  have hpower : engineRuns s.power.state = true := by
    rcases alarmServed_power s (gapServed s (ticked s)) with e | ⟨e, _⟩
    · rw [e, gapServed_power] at hruns
      exact hruns
    · rw [e]
      rfl
  have hslots : (watchServed s (alarmServed s (gapServed s (ticked s)))).requests = (gapServed s (ticked s)).requests := by
    rw [watchServed_requests, alarmServed_requests]
  have hfront : (frontRejection s).isSome = true := by
    refine frontRejection_of_gapServed hlast ?_
    unfold frontRejection at hfront ⊢
    rwa [hslots] at hfront
  have hidle : s.requests.engine = .idle := hidle
  have := h.1
  simp [rejectionDue, hidle, hpower, hfront] at this

/-- R164: a tick is not taken in Starting or in Sleep. -/
theorem tickStep_of_stopped (h : s.power.state = .starting ∨ s.power.state = .sleep) : tickStep s = s := by
  unfold tickStep
  rcases h with h | h <;> rw [h] <;> rfl

/-- R164, R177: the whole tick. -/
theorem tickStep_eq (h : Settled s) (hp : s.power.state = .run ∨ s.power.state = .sleepPending ∨ s.power.state = .doze)
    (hg : gapPositive s.link.assembler) (hlast : ∀ toCome sum damaged, s.link.assembler = .collecting toCome sum damaged 1 →
      ∀ slot ∈ s.requests.slots.dropLast, slot.stage ≠ .filling) :
    tickStep s = sleptIfQuiet (watchServed s (alarmServed s (gapServed s (ticked s)))) := by
  unfold tickStep
  rw [if_pos ((ticksRun_iff _).2 hp), tick_served hg, closeStep_of_no_rejection (rejectionDue_tick h hlast)]

/-- R164: a tick at which neither the alarm nor the watch ends. -/
theorem tickStep_of_quiet (h : Settled s) (hp : s.power.state = .run ∨ s.power.state = .sleepPending ∨ s.power.state = .doze)
    (hg : gapPositive s.link.assembler) (hlast : ∀ toCome sum damaged, s.link.assembler = .collecting toCome sum damaged 1 →
      ∀ slot ∈ s.requests.slots.dropLast, slot.stage ≠ .filling) (halarm : ¬ alarmAtEnd s) (hwatch : ¬ watchAtEnd s) :
    tickStep s = sleptIfQuiet (gapServed s (ticked s)) := by
  rw [tickStep_eq h hp hg hlast, watchServed, if_neg hwatch, alarmServed, if_neg halarm]

/-! ## The commands of the gap timer's ends (R17, R18) -/

theorem exec_tick : exec .tick s = .next (tickStep s) := rfl
theorem exec_gapTimeout : exec .gapTimeout s = .next (if gapTimeoutDue s then tickStep s else s) := rfl
theorem exec_huntingEnd : exec .huntingEnd s = .next (if huntingEndDue s then tickStep s else s) := rfl

/-- R17: a gap timeout falls due where ticks run and the gap timer ends in Collecting. -/
theorem gapTimeoutDue_iff : gapTimeoutDue s = true ↔
    ticksRun s.power.state = true ∧ ∃ toCome sum damaged gap, s.link.assembler = .collecting toCome sum damaged gap ∧ gap ≤ 1 := by
  unfold gapTimeoutDue
  cases s.link.assembler <;> simp

/-- R18: the end of Hunting falls due where ticks run and the gap timer ends in Hunting. -/
theorem huntingEndDue_iff : huntingEndDue s = true ↔
    ticksRun s.power.state = true ∧ ∃ gap, s.link.assembler = .hunting gap ∧ gap ≤ 1 := by
  unfold huntingEndDue
  cases s.link.assembler <;> simp

theorem exec_gapTimeout_of_due (hp : ticksRun s.power.state = true) {toCome : Nat} {sum : Byte} {damaged : Bool}
    (ha : s.link.assembler = .collecting toCome sum damaged 1) : exec .gapTimeout s = exec .tick s := by
  rw [exec_gapTimeout, if_pos (gapTimeoutDue_iff.2 ⟨hp, toCome, sum, damaged, 1, ha, Nat.le_refl 1⟩), exec_tick]

theorem exec_huntingEnd_of_due (hp : ticksRun s.power.state = true) (ha : s.link.assembler = .hunting 1) :
    exec .huntingEnd s = exec .tick s := by
  rw [exec_huntingEnd, if_pos (huntingEndDue_iff.2 ⟨hp, 1, ha, Nat.le_refl 1⟩), exec_tick]

theorem exec_gapTimeout_of_not_due (h : ∀ toCome sum damaged gap, s.link.assembler = .collecting toCome sum damaged gap → 1 < gap) :
    exec .gapTimeout s = .next s := by
  rw [exec_gapTimeout, if_neg]
  rw [gapTimeoutDue_iff]
  rintro ⟨-, toCome, sum, damaged, gap, ha, hg⟩
  exact Nat.not_lt.2 hg (h _ _ _ _ ha)

theorem exec_huntingEnd_of_not_due (h : ∀ gap, s.link.assembler = .hunting gap → 1 < gap) : exec .huntingEnd s = .next s := by
  rw [exec_huntingEnd, if_neg]
  rw [huntingEndDue_iff]
  rintro ⟨-, gap, ha, hg⟩
  exact Nat.not_lt.2 hg (h _ ha)

end

end Sys2Proof.Machine

namespace Sys2Proof.Proofs

open Sys2Proof.Machine

/-- Settles O43: the five steps of R164 one after another, for each case of the gap timer. -/
theorem tickServesItsTimers : Obligations.TickServesItsTimers := by
  intro s h
  refine ⟨fun hp => congrArg _ (tickStep_of_stopped hp), fun hp halarm hwatch => ⟨fun hruns => ?_, ?_, fun ha => ?_⟩,
    fun hp hgood hlast => ⟨?_, fun toCome sum damaged ha => ?_, fun ha => ?_⟩⟩
  · have noEnd : ∀ toCome sum damaged gap, s.link.assembler = .collecting toCome sum damaged gap → 1 < gap := by
      intro toCome sum damaged gap ha
      rw [ha] at hruns
      exact hruns
    have noHuntingEnd : ∀ gap, s.link.assembler = .hunting gap → 1 < gap := by
      intro gap ha
      rw [ha] at hruns
      exact hruns
    refine ⟨?_, exec_gapTimeout_of_not_due noEnd, exec_huntingEnd_of_not_due noHuntingEnd⟩
    have notReady : sleepReady (ticked s) = false := by
      rw [← h.2, sleepReady, sleepReady]
      have hcode : assemblerCode (gapCounted s.link.assembler) = assemblerCode s.link.assembler := by
        cases s.link.assembler <;> rfl
      have e : (ticked s).link.assembler = gapCounted s.link.assembler := rfl
      rw [e, hcode]
      rfl
    rw [exec_tick, tickStep_of_quiet h hp (gapPositive_of_runs hruns)
      (fun _ _ _ ha => absurd (noEnd _ _ _ _ ha) (Nat.lt_irrefl 1)) halarm hwatch, gapServed_of_runs hruns,
      sleptIfQuiet_eq_self _ notReady]
  · intro toCome sum damaged front stored ha hs hfront t
    have htick : exec .tick s = .next t := by
      have hfilter : (ticked s).requests.slots.filter (fun slot => slot.stage ≠ .filling) = front :=
        (congrArg _ hs).trans (filter_not_filling hfront)
      rw [exec_tick, tickStep_of_quiet h hp (by rw [ha]; exact Nat.le_refl 1)
        (fun _ _ _ _ => by rw [hs, List.dropLast_concat]; exact hfront) halarm hwatch, gapServed_of_collecting ha, hfilter]
      rfl
    exact ⟨(exec_gapTimeout_of_due ((ticksRun_iff _).2 hp) ha).trans htick, htick,
      exec_huntingEnd_of_not_due fun gap hg => absurd (ha.symm.trans hg) nofun⟩
  · have htick : exec .tick s = .next (sleptIfQuiet { ticked s with link := { s.link with assembler := leftWith s } }) := by
      rw [exec_tick, tickStep_of_quiet h hp (by rw [ha]; exact Nat.le_refl 1) (fun _ _ _ hg => absurd (ha.symm.trans hg) nofun)
        halarm hwatch, gapServed_of_hunting ha]
      rfl
    exact ⟨(exec_huntingEnd_of_due ((ticksRun_iff _).2 hp) ha).trans htick, htick,
      exec_gapTimeout_of_not_due fun _ _ _ _ hg => absurd (ha.symm.trans hg) nofun⟩
  · rw [exec_tick, tickStep_eq h hp (gapPositive_of_good hgood) fun _ _ _ _ => hlast]
  · exact exec_gapTimeout_of_due ((ticksRun_iff _).2 hp) ha
  · exact exec_huntingEnd_of_due ((ticksRun_iff _).2 hp) ha

end Sys2Proof.Proofs
end

section
/-! PROOFS. The statement about the writers of the link and key stores (R4, R20, R43, R126, R128, R160, R164 to R170, R183): the stores are one view
of the state, each part of a step is said to change so much of that view, and each command is found among the writers of what it changes. -/

namespace Sys2Proof.Machine

/-! ## The stores and their writers -/

/-- The stores whose writers the rules name. -/
structure LinkStores where
  ring : List Byte
  underrun : Bool
  counters : Counters
  table : Vector KeyRecord 64
  config : ScanConfig
  mask : BitVec 11
  ticks : Word
  alarmPeriod : Word
  alarmMode : AlarmMode
  alarmWake : Bool
  watchPeriod : Byte
  watchAction : FallbackAction
  link : LinkState
  cause : ResetCause

/-- The stores of a state. -/
def linkStores (s : State) : LinkStores where
  ring := s.link.ring
  underrun := s.link.underrun
  counters := s.counters
  table := s.scanner.table
  config := s.scanner.config
  mask := s.notices.mask
  ticks := s.time.ticks
  alarmPeriod := s.time.alarmPeriod
  alarmMode := s.time.alarmMode
  alarmWake := s.time.alarmWake
  watchPeriod := s.time.watchPeriod
  watchAction := s.time.watchAction
  link := s.time.link
  cause := s.power.cause

/-- R12, R16: the byte that is held completes a Good parcel. -/
def completesGood (s : State) : Prop :=
  ∃ b sum gap toCome, s.link.holding = some b ∧ s.link.assembler = .collecting toCome sum false gap ∧
    toCome ≤ 1 ∧ sum + b = 0 ∧
    ∃ slot ∈ s.requests.slots, slot.stage = .filling ∧ ((slot.stored ++ [b]).getD 0 0).toNat < 0x80

/-- R182: the REPLY of a RESTART is held. -/
def restartHeld (s : State) : Prop := ∃ a, s.requests.engine = .replying a ∧ a.effect = .warmReset

/-- The command may leave these stores behind in this state. -/
structure MayLeave (c : Instr) (s : State) (after : LinkStores) : Prop where
  ring : after.ring ≠ s.link.ring → c = .posting ∨ c = .linkDataRead ∨ ∃ v, c = .resync v
  underrun : after.underrun ≠ s.link.underrun → c = .linkDataRead ∨ c = .linkStatusRead
  overrun : after.counters.overrun ≠ s.counters.overrun → c = .clearCounters ∨ ∃ v, c = .linkDataWrite v
  framing : after.counters.framing ≠ s.counters.framing → c = .clearCounters ∨ c = .byteTaken ∨ tickCommand c = true
  reject : after.counters.reject ≠ s.counters.reject → c = .clearCounters ∨ c = .byteTaken
  lateFrame : after.counters.lateFrame ≠ s.counters.lateFrame → c = .clearCounters ∨ c = .frameBoundary true
  lostKey : after.counters.lostKey ≠ s.counters.lostKey → c = .clearCounters ∨ passCommand c = true
  table : after.table ≠ s.scanner.table → c = .setKey
  config : after.config ≠ s.scanner.config → c = .configureScan
  mask : after.mask ≠ s.notices.mask → ∃ a v, c = .noticeMask a v
  ticks : after.ticks ≠ s.time.ticks → tickCommand c = true ∧ after.ticks = s.time.ticks + 1
  alarm : after.alarmPeriod ≠ s.time.alarmPeriod ∨ after.alarmMode ≠ s.time.alarmMode ∨ after.alarmWake ≠ s.time.alarmWake →
    c = .setAlarm ∨ c = .posting ∨ tickCommand c = true
  watch : after.watchPeriod ≠ s.time.watchPeriod ∨ after.watchAction ≠ s.time.watchAction → c = .setLinkWatch ∨ c = .posting
  cause : after.cause ≠ s.power.cause → c = .posting
  lost : s.time.link = .live → after.link = .lost → tickCommand c = true ∧ watchAtEnd s
  live : s.time.link = .lost → after.link = .live → (c = .byteTaken ∧ completesGood s) ∨ (c = .posting ∧ restartHeld s)

section
variable {c : Instr} {s t : State}

/-- Every command may leave the stores as they were. -/
theorem mayLeave_unchanged (c : Instr) (s : State) : MayLeave c s (linkStores s) where
  ring h := absurd rfl h
  underrun h := absurd rfl h
  overrun h := absurd rfl h
  framing h := absurd rfl h
  reject h := absurd rfl h
  lateFrame h := absurd rfl h
  lostKey h := absurd rfl h
  table h := absurd rfl h
  config h := absurd rfl h
  mask h := absurd rfl h
  ticks h := absurd rfl h
  alarm h := h.elim (absurd rfl) fun h => h.elim (absurd rfl) (absurd rfl)
  watch h := h.elim (absurd rfl) (absurd rfl)
  cause h := absurd rfl h
  lost h h' := absurd (h.symm.trans h') nofun
  live h h' := absurd (h.symm.trans h') nofun

theorem MayLeave.of_eq (h : linkStores t = linkStores s) : MayLeave c s (linkStores t) := h ▸ mayLeave_unchanged c s

/-- A command that acts in some states only. -/
theorem MayLeave.ite {p : Prop} [Decidable p] (h : MayLeave c s (linkStores t)) :
    MayLeave c s (linkStores (if p then t else s)) := by
  split
  · exact h
  · exact mayLeave_unchanged c s

/-! ## What the shared parts of a step leave -/

variable (s)

@[simp] theorem linkStores_closeStep : linkStores (closeStep s) = linkStores s := by
  rw [closeStep_eq]
  have rejected : linkStores (withReject s) = linkStores s := by
    rw [withReject_requests]
    rfl
  rw [← rejected]
  unfold sleptIfQuiet
  split <;> rfl

theorem linkStores_enterSleepIfReady : linkStores (enterSleepIfReady s) = linkStores s := by
  rw [enterSleepIfReady_eq]
  unfold sleptIfQuiet
  split <;> rfl

theorem linkStores_returnToRun : linkStores (returnToRun s) = linkStores s := by
  rw [returnToRun_eq]
  unfold linkStores
  dsimp only
  split <;> rfl

theorem linkStores_resumeEngine : linkStores (resumeEngine s) = linkStores s := by
  unfold resumeEngine
  split <;> rfl

theorem linkStores_contactChanges (k : Fin 64) (closed : Bool) : linkStores (contactChanges k closed s) = linkStores s := by
  obtain ⟨contacts, armed, due, e⟩ := contactChanges_eq k closed s
  rw [e]
  rfl

theorem linkStores_beyondFrame : linkStores (beyondFrame s) = linkStores s := rfl

theorem linkStores_boundary : linkStores (boundary s) = linkStores s := by
  rw [boundary_eq, linkStores_closeStep, ← linkStores_beyondFrame, beyondFrame_boundarySteps, linkStores_beyondFrame]

/-- R151: a scan pass counts lost keys and leaves the other stores. -/
theorem linkStores_scanPassStep (longGhosts : KeySet) :
    ∃ lostKey, linkStores (scanPassStep longGhosts s) =
      { linkStores s with counters := { s.counters with lostKey := lostKey } } := by
  have masked : ∀ t : State, linkStores (beyondPass t) =
      { linkStores t with counters := { t.counters with lostKey := 0 } } := fun _ => rfl
  have e := congrArg linkStores (beyondPass_scanPassStep s longGhosts)
  rw [masked, masked] at e
  generalize scanPassStep longGhosts s = t at e
  exact ⟨t.counters.lostKey,
    congrArg (fun v : LinkStores => { v with counters := { v.counters with lostKey := t.counters.lostKey } }) e⟩

/-! ## The port -/

/-- R8, R43: a write to Link Data may count an overrun. -/
theorem linkStores_linkDataWrite (value : Byte) :
    ∃ n, linkStores (portWrite 0 value s) = { linkStores s with counters := { s.counters with overrun := n } } := by
  cases hr : s.pins.rstLow with
  | true =>
    rw [portWrite_of_rstLow hr (by decide)]
    exact ⟨s.counters.overrun, rfl⟩
  | false =>
    rw [portWrite_linkData hr]
    unfold writeLinkData
    split
    · exact ⟨s.counters.overrun, rfl⟩
    · split
      · unfold holdByte
        dsimp only
        split <;> exact ⟨s.counters.overrun, rfl⟩
      · exact ⟨_, rfl⟩

/-- R9: a read of Link Data takes a byte off the ring or sets UNDERRUN. -/
theorem linkStores_readLinkData :
    ∃ ring underrun, linkStores (readLinkData s) = { linkStores s with ring := ring, underrun := underrun } := by
  unfold readLinkData
  split
  · exact ⟨s.link.ring, true, rfl⟩
  · rw [linkStores_closeStep]
    exact ⟨_, s.link.underrun, rfl⟩

/-- R23, R24: a RESYNC empties the ring. -/
theorem linkStores_resync {value : Byte} (h0 : value.getLsbD 0 = true) (h1 : value.getLsbD 1 = false) :
    ∃ ring, linkStores (portWrite 1 value s) = { linkStores s with ring := ring } := by
  cases hr : s.pins.rstLow with
  | true =>
    rw [portWrite_resync_of_rstLow hr h1]
    exact ⟨s.link.ring, rfl⟩
  | false =>
    rw [portWrite_resync hr h0 h1]
    unfold resyncLink
    split
    · exact ⟨s.link.ring, rfl⟩
    · rw [linkStores_closeStep]
      exact ⟨[], rfl⟩

/-- R158: an acknowledge touches the sticky notices alone. -/
theorem linkStores_acknowledge {address : PortAddress} (h : address = 2 ∨ address = 3) (value : Byte) :
    linkStores (portWrite address value s) = linkStores s := by
  cases hr : s.pins.rstLow with
  | true => rw [portWrite_of_rstLow hr (by rcases h with rfl | rfl <;> decide)]
  | false => rcases h with rfl | rfl <;> simp only [portWrite, hr] <;> rfl

/-- R160: a mask write. -/
theorem linkStores_noticeMask {address : PortAddress} (h : address = 4 ∨ address = 5) (value : Byte) :
    ∃ mask, linkStores (portWrite address value s) = { linkStores s with mask := mask } := by
  cases hr : s.pins.rstLow with
  | true =>
    rw [portWrite_of_rstLow hr (by rcases h with rfl | rfl <;> decide)]
    exact ⟨s.notices.mask, rfl⟩
  | false =>
    rcases h with rfl | rfl <;> simp only [portWrite, hr]
    · exact ⟨writtenMask false value s.notices.mask, rfl⟩
    · exact ⟨writtenMask true value s.notices.mask, rfl⟩

/-! ## The posting -/

/-- R33, R182: a posting appends to the ring, and the posting of a RESTART's REPLY gives the timebase, the link state and the reset cause the values
of the RESTART column. -/
theorem linkStores_postingStep :
    ∃ ring, linkStores (postingStep s) = { linkStores s with ring := ring } ∨
      (restartHeld s ∧ linkStores (postingStep s) =
        { linkStores s with
          ring := ring, alarmPeriod := 0, alarmMode := .off, alarmWake := false, watchPeriod := 0, watchAction := .none,
          link := .live, cause := .restart }) := by
  unfold postingStep
  cases he : s.requests.engine with
  | replying a =>
    rw [postable_of_replying he]
    split
    next b hb =>
      have hab : a = b := by
        split at hb
        · exact Option.some.inj hb
        · cases hb
      subst hab
      refine ⟨s.link.ring ++ a.bytes, ?_⟩
      rw [linkStores_closeStep]
      cases hf : a.effect with
      | nothing => exact .inl rfl
      | warmReset => exact .inr ⟨⟨a, he, hf⟩, rfl⟩
      | enterDoze =>
        refine .inl ?_
        show linkStores (enterLowPower .doze (postBytes a s)) = _
        rw [enterLowPower_eq]
        rfl
      | enterSleep => exact .inl rfl
    next => exact ⟨s.link.ring, .inl rfl⟩
  | _ =>
    rw [postable_of_not_replying (by simp [he])]
    exact ⟨s.link.ring, .inl rfl⟩

/-! ## The taking of a byte -/

variable {s}

/-- R12: a complete parcel is Good where its sum is 0, it is not damaged and its Kind is that of a request. -/
theorem rejection_eq_none {sum : Byte} {damaged : Bool} {kind : Byte} (h : rejection sum damaged kind = none) :
    sum = 0 ∧ damaged = false ∧ kind.toNat < 0x80 := by
  unfold rejection at h
  split at h
  · cases h
  next hsum =>
    split at h
    · cases h
    next hdamaged =>
      split at h
      · cases h
      next hkind =>
        refine ⟨Decidable.not_not.1 hsum, Bool.eq_false_iff.2 hdamaged, ?_⟩
        have msb : kind.msb = false := Bool.eq_false_iff.2 hkind
        have small := BitVec.msb_eq_false_iff_two_mul_lt.1 msb
        omega

/-- R15: the slot in which a byte was stored. -/
theorem fillingSlot_storeByte {b : Byte} {slot : Slot} (h : fillingSlot (storeByte b s).requests.slots = some slot) :
    ∃ before ∈ s.requests.slots, before.stage = .filling ∧ slot.stored = before.stored ++ [b] := by
  obtain ⟨before, hm, e⟩ := List.mem_map.1 (List.mem_of_find?_eq_some h)
  have hstage : slot.stage = .filling := by simpa using List.find?_some h
  by_cases hb : before.stage = .filling
  · rw [if_pos hb] at e
    exact ⟨before, hm, hb, (congrArg Slot.stored e).symm⟩
  · rw [if_neg hb] at e
    exact absurd (e ▸ hstage) hb

/-- R16: the completion of a parcel counts a rejection, or makes the link Live. -/
theorem linkStores_completeParcel (sum : Byte) (damaged : Bool) :
    (∃ n, linkStores (completeParcel sum damaged s) = { linkStores s with counters := { s.counters with reject := n } }) ∨
      (linkStores (completeParcel sum damaged s) = { linkStores s with link := .live } ∧ sum = 0 ∧ damaged = false ∧
        ∃ slot, fillingSlot s.requests.slots = some slot ∧ slot.kind.toNat < 0x80) := by
  unfold completeParcel
  split
  · exact .inl ⟨s.counters.reject, rfl⟩
  next slot hslot =>
    split
    next hr =>
      obtain ⟨hsum, hdamaged, hkind⟩ := rejection_eq_none hr
      refine .inr ⟨?_, hsum, hdamaged, slot, hslot, hkind⟩
      rw [goodParcel_eq]
      rfl
    · exact .inl ⟨_, rfl⟩

/-- R7, R14, R16: the taking of a byte counts a framing error or a rejection, or completes a Good parcel. -/
theorem linkStores_takingStep :
    (∃ framing reject, linkStores (takingStep s) =
        { linkStores s with counters := { s.counters with framing := framing, reject := reject } }) ∨
      (linkStores (takingStep s) = { linkStores s with link := .live } ∧ completesGood s) := by
  have unchanged : ∃ framing reject, linkStores s =
      { linkStores s with counters := { s.counters with framing := framing, reject := reject } } :=
    ⟨s.counters.framing, s.counters.reject, rfl⟩
  unfold takingStep
  split
  · exact .inl unchanged
  next b hb =>
    split
    · rw [linkStores_closeStep]
      unfold handleByte
      split
      · unfold takeLength
        split
        · unfold abandonSleep
          split <;> exact .inl unchanged
        · exact .inl ⟨_, s.counters.reject, rfl⟩
      next toCome sum damaged gap ha =>
        unfold takeCollecting
        split
        next hlast =>
          rcases linkStores_completeParcel (s := setAssembler (.awaitLength false) (storeByte b (emptyHolding s)))
            (sum + b) damaged with ⟨n, e⟩ | ⟨e, hsum, rfl, slot, hslot, hkind⟩
          · exact .inl ⟨s.counters.framing, n, e⟩
          · obtain ⟨before, hm, hf, hstored⟩ := fillingSlot_storeByte hslot
            rw [Slot.kind, hstored] at hkind
            exact .inr ⟨e, b, sum, gap, toCome, hb, ha, hlast, hsum, before, hm, hf, hkind⟩
        · exact .inl unchanged
      · exact .inl unchanged
    · exact .inl unchanged

/-! ## The tick -/

/-- R17: the gap timer leaves the timebase and counts at most a framing error. -/
theorem linkStores_serveGap (s : State) :
    (serveGap s).time = s.time ∧
      ∃ n, linkStores (serveGap s) = { linkStores s with counters := { s.counters with framing := n } } := by
  unfold serveGap
  split
  · exact ⟨rfl, s.counters.framing, rfl⟩
  · split
    · exact ⟨rfl, _, rfl⟩
    · exact ⟨rfl, s.counters.framing, rfl⟩
  · split <;> exact ⟨rfl, s.counters.framing, rfl⟩

/-- R131: the pass timer leaves the timebase and the stores. -/
theorem linkStores_servePassTimer (s : State) :
    (servePassTimer s).time = s.time ∧ linkStores (servePassTimer s) = linkStores s := by
  rw [servePassTimer_eq]
  refine ⟨rfl, ?_⟩
  unfold linkStores
  dsimp only
  split
  · split <;> rfl
  · rfl

/-- R167: an expiry of the alarm changes its mode, its period and its count. -/
theorem expiredAlarm_eq (t : Timebase) :
    ∃ period mode count, expiredAlarm t = { t with alarmPeriod := period, alarmMode := mode, alarmCount := count } := by
  unfold expiredAlarm
  split <;> exact ⟨_, _, _, rfl⟩

/-- R167: the alarm changes its own mode and period at most. -/
theorem linkStores_serveAlarm (s : State) :
    ∃ period mode, linkStores (serveAlarm s) = { linkStores s with alarmPeriod := period, alarmMode := mode } := by
  unfold serveAlarm
  split
  · exact ⟨s.time.alarmPeriod, s.time.alarmMode, rfl⟩
  · split
    · obtain ⟨period, mode, count, e⟩ := expiredAlarm_eq s.time
      refine ⟨period, mode, ?_⟩
      unfold alarmExpires
      rw [e]
      dsimp only
      split
      · rw [linkStores_returnToRun]
        rfl
      · rfl
    · exact ⟨s.time.alarmPeriod, s.time.alarmMode, rfl⟩

/-- R167, R169: the alarm leaves the watch. -/
theorem watchAtEnd_serveAlarm (s : State) : watchAtEnd (serveAlarm s) ↔ watchAtEnd s := by
  rw [serveAlarm_eq (s := s) rfl rfl rfl rfl rfl]
  obtain ⟨hperiod, hlink, hcount, -⟩ := alarmServed_watch s { s with time := alarmCounted s.time }
  unfold watchAtEnd
  rw [hperiod, hlink, hcount]
  rfl

/-- R169: the watch makes the link Lost where it ends, and leaves the other stores. -/
theorem linkStores_serveWatch (s : State) :
    linkStores (serveWatch s) = linkStores s ∨
      (watchAtEnd s ∧ linkStores (serveWatch s) = { linkStores s with link := .lost }) := by
  rw [serveWatch_eq (s := s) rfl rfl rfl rfl rfl]
  unfold watchServed
  split
  next hw => exact .inr ⟨hw, rfl⟩
  next => exact .inl rfl

/-- R164: the five steps of a tick together. -/
theorem linkStores_tickStep (h : ticksRun s.power.state = true) :
    ∃ framing period mode link, (link = s.time.link ∨ (watchAtEnd s ∧ link = .lost)) ∧ linkStores (tickStep s) =
      { linkStores s with
        ticks := s.time.ticks + 1, counters := { s.counters with framing := framing }
        alarmPeriod := period, alarmMode := mode, link := link } := by
  obtain ⟨gapTime, framing, gapStores⟩ := linkStores_serveGap (advanceTick s)
  obtain ⟨passTime, passStores⟩ := linkStores_servePassTimer (serveGap (advanceTick s))
  have time : (servePassTimer (serveGap (advanceTick s))).time = { s.time with ticks := s.time.ticks + 1 } :=
    passTime.trans gapTime
  obtain ⟨period, mode, alarmStores⟩ := linkStores_serveAlarm (servePassTimer (serveGap (advanceTick s)))
  have alarmStores := alarmStores.trans (congrArg
    (fun v : LinkStores => { v with alarmPeriod := period, alarmMode := mode }) (passStores.trans gapStores))
  have ends : watchAtEnd (serveAlarm (servePassTimer (serveGap (advanceTick s)))) ↔ watchAtEnd s := by
    rw [watchAtEnd_serveAlarm, watchAtEnd, time]
  unfold tickStep
  rw [if_pos h, linkStores_closeStep]
  rcases linkStores_serveWatch (serveAlarm (servePassTimer (serveGap (advanceTick s)))) with e | ⟨hw, e⟩
  · exact ⟨framing, period, mode, s.time.link, .inl rfl, e.trans alarmStores⟩
  · exact ⟨framing, period, mode, .lost, .inr ⟨ends.1 hw, rfl⟩, e.trans
      (congrArg (fun v : LinkStores => { v with link := .lost }) alarmStores)⟩

/-- R164: what a tick may leave. -/
theorem mayLeave_tickStep (h : tickCommand c = true) : MayLeave c s (linkStores (tickStep s)) := by
  by_cases hp : ticksRun s.power.state = true
  · obtain ⟨framing, period, mode, link, hlink, e⟩ := linkStores_tickStep hp
    rw [e]
    exact
      { mayLeave_unchanged c s with
        ticks := fun _ => ⟨h, rfl⟩
        framing := fun _ => .inr (.inr h)
        alarm := fun _ => .inr (.inr h)
        lost := fun live lost => hlink.elim (fun same => absurd (live.symm.trans (same.symm.trans lost)) nofun) fun hw => ⟨h, hw.1⟩
        live := fun lost live => hlink.elim (fun same => absurd (lost.symm.trans (same.symm.trans live)) nofun) fun hw =>
          absurd (hw.2.symm.trans live) nofun }
  · unfold tickStep
    rw [if_neg hp]
    exact mayLeave_unchanged c s

/-- R151: what a scan pass may leave. -/
theorem mayLeave_scanPassStep (h : passCommand c = true) (longGhosts : KeySet) :
    MayLeave c s (linkStores (scanPassStep longGhosts s)) := by
  obtain ⟨lostKey, e⟩ := linkStores_scanPassStep s longGhosts
  rw [e]
  exact { mayLeave_unchanged c s with lostKey := fun _ => .inr h }

/-! ## The requests -/

/-- R37: what the effect of a request may leave. -/
theorem MayLeave.of_keeps (h : RequestKeeps c (beginExecution s) t) : MayLeave c s (linkStores t) where
  ring hne := absurd (congrArg Link.ring h.link) hne
  underrun hne := absurd (congrArg Link.underrun h.link) hne
  overrun hne := .inl (not_imp_comm.1 h.counters fun e => hne (congrArg Counters.overrun e))
  framing hne := .inl (not_imp_comm.1 h.counters fun e => hne (congrArg Counters.framing e))
  reject hne := .inl (not_imp_comm.1 h.counters fun e => hne (congrArg Counters.reject e))
  lateFrame hne := .inl (not_imp_comm.1 h.counters fun e => hne (congrArg Counters.lateFrame e))
  lostKey hne := .inl (not_imp_comm.1 h.counters fun e => hne (congrArg Counters.lostKey e))
  table hne := not_imp_comm.1 h.table hne
  config hne := not_imp_comm.1 h.config hne
  mask hne := absurd h.mask hne
  ticks hne := absurd h.ticks hne
  alarm hne := .inl (not_imp_comm.1 h.alarm fun ⟨period, mode, wake⟩ => hne.elim (absurd period) (Or.rec (absurd mode) (absurd wake)))
  watch hne := .inl (not_imp_comm.1 h.watch fun ⟨period, action⟩ => hne.elim (absurd period) (absurd action))
  cause hne := absurd h.cause hne
  lost live lost := absurd (live.symm.trans (h.linkState.symm.trans lost)) nofun
  live lost live := absurd (lost.symm.trans (h.linkState.symm.trans live)) nofun

/-- R30, R36, R37: what an execution step may leave, where its body can do no more than a request can. -/
theorem mayLeave_execute (accepts : Byte → Bool) {body : List Byte → State → Verdict}
    (hb : ∀ payload s after result effect, body payload s = .done after result effect → RequestKeeps c s after) :
    MayLeave c s (linkStores (execute accepts body s)) := by
  rcases execute_cases accepts body s with e | ⟨slot, -, -, e⟩
  · rw [e]
    exact mayLeave_unchanged c s
  · rw [e]
    cases hv : body slot.payload (beginExecution s) with
    | fail code result => exact mayLeave_unchanged c s
    | done after result effect =>
      have keeps := hb _ _ _ _ _ hv
      exact MayLeave.of_keeps (t := after) keeps

/-- A request of the catalogue. -/
theorem mayLeave_request {kind : Byte} (hc : requestCode c = some kind) : MayLeave c s (linkStores (effect c s)) := by
  rw [effect_of_requestCode hc]
  refine mayLeave_execute _ fun payload s after result effect hv => ?_
  have keeps := requestBody_keeps hc payload s
  rw [hv] at keeps
  exact keeps.1

/-! ## Every command -/

/-- Each command that is none of the resets is a writer of every store that it changes. -/
theorem mayLeave_effect (hw : c.wellFormed = true) (hr : resetCommand c = false) : MayLeave c s (linkStores (effect c s)) := by
  cases c with
  | linkDataWrite value =>
    obtain ⟨n, e⟩ := linkStores_linkDataWrite s value
    show MayLeave _ s (linkStores (portWrite 0 value s))
    rw [e]
    exact { mayLeave_unchanged _ s with overrun := fun _ => .inr ⟨value, rfl⟩ }
  | linkDataRead =>
    obtain ⟨ring, underrun, e⟩ := linkStores_readLinkData s
    show MayLeave _ s (linkStores (readLinkData s))
    rw [e]
    exact { mayLeave_unchanged _ s with ring := fun _ => .inr (.inl rfl), underrun := fun _ => .inl rfl }
  | linkStatusRead =>
    show MayLeave _ s { linkStores s with underrun := false }
    exact { mayLeave_unchanged _ s with underrun := fun _ => .inr rfl }
  | resync value =>
    have hv : value.getLsbD 0 = true ∧ value.getLsbD 1 = false := by simpa [Instr.wellFormed] using hw
    obtain ⟨ring, e⟩ := linkStores_resync s hv.1 hv.2
    show MayLeave _ s (linkStores (portWrite 1 value s))
    rw [e]
    exact { mayLeave_unchanged _ s with ring := fun _ => .inr (.inr ⟨value, rfl⟩) }
  | fullReset value => cases hr
  | noticeAcknowledge address value =>
    exact .of_eq (linkStores_acknowledge s (by simpa [Instr.wellFormed] using hw) value)
  | noticeMask address value =>
    obtain ⟨mask, e⟩ := linkStores_noticeMask s (by simpa [Instr.wellFormed] using hw) value
    show MayLeave _ s (linkStores (portWrite address value s))
    rw [e]
    exact { mayLeave_unchanged _ s with mask := fun _ => ⟨address, value, rfl⟩ }
  | ignoredPortWrite address value =>
    exact .of_eq (congrArg linkStores (portWrite_ignored (by simpa [Instr.wellFormed] using hw) value))
  | byteTaken =>
    show MayLeave _ s (linkStores (takingStep s))
    rcases linkStores_takingStep (s := s) with ⟨framing, reject, e⟩ | ⟨e, hgood⟩
    · rw [e]
      exact { mayLeave_unchanged _ s with framing := fun _ => .inr (.inl rfl), reject := fun _ => .inr rfl }
    · rw [e]
      exact { mayLeave_unchanged _ s with lost := fun _ => nofun, live := fun _ _ => .inl ⟨rfl, hgood⟩ }
  | gapTimeout => exact (mayLeave_tickStep rfl).ite
  | huntingEnd => exact (mayLeave_tickStep rfl).ite
  | posting =>
    show MayLeave _ s (linkStores (postingStep s))
    obtain ⟨ring, e | ⟨held, e⟩⟩ := linkStores_postingStep s
    · rw [e]
      exact { mayLeave_unchanged _ s with ring := fun _ => .inl rfl }
    · rw [e]
      exact
        { mayLeave_unchanged _ s with
          ring := fun _ => .inl rfl
          alarm := fun _ => .inr (.inl rfl)
          watch := fun _ => .inr rfl
          cause := fun _ => rfl
          lost := fun _ => nofun
          live := fun _ _ => .inr ⟨rfl, held⟩ }
  | sleepEntry => exact .of_eq (linkStores_enterSleepIfReady s)
  | unknownKindRequest => exact mayLeave_execute unknownKind fun _ _ _ _ _ => nofun
  | frameBoundary waited =>
    show MayLeave _ s (linkStores (if boundaryDue s then boundary (countWait waited s) else s))
    refine MayLeave.ite ?_
    rw [linkStores_boundary]
    cases waited with
    | false => exact mayLeave_unchanged _ s
    | true => exact { mayLeave_unchanged _ s with lateFrame := fun _ => .inr rfl }
  | resumingBoundary => exact (MayLeave.of_eq (linkStores_boundary s)).ite
  | rowScanOut =>
    show MayLeave _ s (linkStores (match dueRow s with
      | some r => scanRow r s
      | none => s))
    cases dueRow s <;> exact mayLeave_unchanged _ s
  | tick => exact mayLeave_tickStep rfl
  | scanPass longGhosts =>
    show MayLeave _ s (linkStores (scanPassStep longGhosts s))
    exact mayLeave_scanPassStep rfl longGhosts
  | repeatEvent longGhosts =>
    show MayLeave _ s (linkStores (if repeatRunsOut longGhosts s then scanPassStep longGhosts s else s))
    exact (mayLeave_scanPassStep rfl longGhosts).ite
  | alarmExpiry => exact (mayLeave_tickStep rfl).ite
  | linkWatchExpiry => exact (mayLeave_tickStep rfl).ite
  | wakeStep =>
    show MayLeave _ s (linkStores (if wakeStepDue s then closeStep (returnToRun (resumeEngine s)) else s))
    refine (MayLeave.of_eq ?_).ite
    rw [linkStores_closeStep, linkStores_returnToRun, linkStores_resumeEngine]
  | endOfStarting => exact (MayLeave.of_eq (linkStores_returnToRun s)).ite
  | powerOnReset => cases hr
  | rstPinReset low =>
    cases hr
    exact mayLeave_unchanged _ s
  | watchedLineChange key closed => exact .of_eq (linkStores_contactChanges s key closed)
  | _ => exact mayLeave_request rfl

end

end Sys2Proof.Machine

namespace Sys2Proof.Proofs

open Sys2Proof.Machine

/-- Settles O59: every command is a writer of the stores that it changes. -/
theorem linkAndKeyStoresHaveTheirWriters : Obligations.LinkAndKeyStoresHaveTheirWriters := by
  intro c s t hw hstep hr
  rw [exec_eq_effect] at hstep
  cases hstep
  have h := mayLeave_effect (s := s) hw hr
  exact ⟨h.ring, h.underrun, h.overrun, h.framing, h.reject, h.lateFrame, h.lostKey, h.table, h.config, h.mask, h.ticks, h.alarm, h.watch,
    h.cause, h.lost, h.live⟩

end Sys2Proof.Proofs
end

section
/-! PROOFS. How a request that is due is answered, in the terms of the verdict on it (R30, R36, R37), and where the execution of one is not due. -/

namespace Sys2Proof.Machine

section
variable {c : Instr} {kind tag : Byte} {payload result : List Byte} {s t : State}

/-! ## The three kinds of verdict -/

theorem exec_of_due (hc : requestCode c = some kind) (h : RequestDue kind tag payload s) :
    exec c s = .next (answeredBy kind tag s (requestBody c payload (beginExecution s))) := by
  rw [exec_of_requestCode hc, executeKind_of_due h]

/-- R36: a request that fails leaves its REPLY and changes nothing else. -/
theorem exec_of_fail (code : OutcomeCode) (hc : requestCode c = some kind) (h : RequestDue kind tag payload s)
    (hv : requestBody c payload (beginExecution s) = .fail code result) :
    exec c s = .next (answeredOnly kind tag (outcomeByte code) result s) := by
  rw [exec_of_due hc h, hv]
  rfl

theorem exec_of_badSize (hc : requestCode c = some kind) (h : RequestDue kind tag payload s)
    (hv : requestBody c payload (beginExecution s) = .fail .badSize []) :
    exec c s = .next (answeredOnly kind tag 2 [] s) := exec_of_fail .badSize hc h hv

theorem exec_of_outOfRange (hc : requestCode c = some kind) (h : RequestDue kind tag payload s)
    (hv : requestBody c payload (beginExecution s) = .fail .outOfRange []) :
    exec c s = .next (answeredOnly kind tag 3 [] s) := exec_of_fail .outOfRange hc h hv

/-- R37: a request that is DONE leaves its effect, which is none on the queue and the engine, and its REPLY. -/
theorem exec_of_done {u : State} (hc : requestCode c = some kind) (h : RequestDue kind tag payload s)
    (hv : requestBody c payload (beginExecution s) = doneReading t result) (ht : t.requests = (beginExecution s).requests)
    (hu : u = { t with requests := replyHeld kind tag 0 result .nothing s.requests }) : exec c s = .next u := by
  rw [exec_of_due hc h, hv, hu]
  simp only [doneReading, answeredBy, ht, replyHeld_beginExecution]

/-- R37: a request that only reads leaves its REPLY and changes nothing else. -/
theorem exec_of_reading (hc : requestCode c = some kind) (h : RequestDue kind tag payload s)
    (hv : requestBody c payload (beginExecution s) = doneReading (beginExecution s) result) :
    exec c s = .next (answeredOnly kind tag 0 result s) := exec_of_done hc h hv rfl rfl

/-- R36, stage 2: the sizes that a request of the catalogue takes. -/
theorem answersBadSize_of_body {taken : Nat → Prop} (hc : requestCode c = some kind)
    (hbody : ∀ payload s, ¬ taken payload.length → requestBody c payload s = .fail .badSize []) : answersBadSize c kind taken :=
  answersBadSize_of (exec_of_requestCode hc) hbody

/-! ## Where no execution step is due (log entry 1) -/

theorem executionSlot_of_not_due
    (h : s.requests.engine ≠ .idle ∨ (s.power.state ≠ .run ∧ s.power.state ≠ .doze) ∨
      ∀ front rest, s.requests.slots = front :: rest → front.stage ≠ .waitingGood) : executionSlot s = none := by
  unfold executionSlot
  cases hs : s.requests.slots with
  | nil => rfl
  | cons front rest =>
    refine if_neg fun ⟨idle, good, runs⟩ => ?_
    rcases h with h | ⟨notRun, notDoze⟩ | h
    · exact h idle
    · exact ((engineRuns_iff _).1 runs).elim notRun notDoze
    · exact h front rest hs good

theorem execute_of_not_due (h : executionSlot s = none) (accepts : Byte → Bool) (body : List Byte → State → Verdict) :
    execute accepts body s = s := by
  simp only [execute, h]

theorem execute_of_refused (h : RequestDue kind tag payload s) {accepts : Byte → Bool} (ha : accepts kind = false)
    (body : List Byte → State → Verdict) : execute accepts body s = s := by
  obtain ⟨slot, hslot, rfl, -, -⟩ := h.slot
  simp only [execute, hslot, ha, Bool.false_eq_true, if_false]

/-! ## The catalogue (section 2.4, R39) -/

/-- The requests of the catalogue, in the order of their codes. -/
def catalogue : List Instr :=
  [.identify, .echo, .getStatus, .clearCounters, .restart, .configurePanel, .setDisplayMode, .setContrast, .setBlink, .writeCanvas,
   .readCanvas, .writeAttributes, .readAttributes, .setCursor, .writeAtCursor, .clearCanvas, .setView, .getView, .setBackdrop,
   .selectViews, .stage, .loadDescriptor, .freeDescriptor, .submitChain, .cancelChain, .chainStatus, .readDescriptor,
   .configureScan, .setKey, .takeKeys, .flushKeys, .getKeyStates, .readTime, .setAlarm, .setLinkWatch, .enterDoze, .enterSleep, .wake]

theorem knownKinds_eq : knownKinds = catalogue.filterMap requestCode := rfl

theorem mem_catalogue (h : requestCode c = some kind) : c ∈ catalogue := by
  cases c <;> cases h <;> decide

theorem unknownKind_eq_false_iff (kind : Byte) : unknownKind kind = false ↔ ∃ c, requestCode c = some kind := by
  have hk : unknownKind kind = false ↔ kind ∈ knownKinds := by simp [unknownKind]
  rw [hk, knownKinds_eq, List.mem_filterMap]
  exact ⟨fun ⟨c, _, h⟩ => ⟨c, h⟩, fun ⟨c, h⟩ => ⟨c, mem_catalogue h, h⟩⟩

/-! ## The general requests (R40 to R44) -/

/-- R42: the code of the power state in which a request is executed. -/
theorem powerCode_of_runs {p : PowerState} (h : p = .run ∨ p = .doze) :
    (powerCode p).setWidth 8 = if p = .doze then (2 : Byte) else 1 := by
  rcases h with rfl | rfl <;> rfl

end

end Sys2Proof.Machine

namespace Sys2Proof.Proofs

open Sys2Proof.Machine

/-- Settles O1: each request by its size, and by the bytes that it returns. -/
theorem generalRequestsAnswer : Obligations.GeneralRequestsAnswer := by
  intro tag payload s
  refine ⟨fun h => ?_, fun h => ?_, fun h => ?_, fun h => ?_⟩
  · cases payload with
    | nil => exact exec_of_reading rfl h rfl
    | cons b rest => exact exec_of_badSize rfl h rfl
  · split
    next hl => exact exec_of_reading rfl h (if_neg (by omega))
    next hl => exact exec_of_badSize rfl h (if_pos (by omega))
  · cases payload with
    | nil =>
      refine (exec_of_reading rfl h rfl).trans ?_
      have hp := powerCode_of_runs h.runs
      simp only [statusBytes, counterBytes, queueFill, beginExecution_slots, setFrontStage_length, beginExecution_power, hp]
      rfl
    | cons b rest => exact exec_of_badSize rfl h rfl
  · cases payload with
    | nil => exact exec_of_done rfl h rfl rfl rfl
    | cons b rest => exact exec_of_badSize rfl h rfl

/-- Settles O32: by the catalogue, and by the slot that an execution step would take. -/
theorem requestsWaitOrAreUnknown : Obligations.RequestsWaitOrAreUnknown := by
  refine ⟨fun kind tag payload s h => ⟨fun hk => ?_, fun hk => ?_, fun c other hc hne => ?_⟩, fun c s hc hs => ?_⟩
  · have known := (unknownKind_eq_false_iff kind).2 hk
    exact congrArg _ (execute_of_refused h known unknownKindBody)
  · have unknown : unknownKind kind = true :=
      Bool.eq_true_of_not_eq_false fun hn => ((unknownKind_eq_false_iff kind).1 hn).elim hk
    exact congrArg _ (execute_of_due h unknown unknownKindBody)
  · rw [exec_of_requestCode hc]
    exact congrArg _ (execute_of_refused h (by simpa using hne.symm) _)
  · have waits := execute_of_not_due (executionSlot_of_not_due hs)
    rcases hc with rfl | ⟨kind, hc⟩
    · exact congrArg _ (waits _ _)
    · rw [exec_of_requestCode hc]
      exact congrArg _ (waits _ _)

end Sys2Proof.Proofs
end

section
/-! PROOFS. The statements about the canvas requests (R36, R45 to R50, R52, R54 to R57): a run and the cells of the cursor are both a list of
distinct cells, each of which receives one byte. -/

namespace Sys2Proof.Machine

/-! ## Two-byte fields and modes (R38, R49, section 0.6) -/

theorem append_toNat (hi lo : Byte) : (hi ++ lo : Word).toNat = hi.toNat * 256 + lo.toNat := by
  rw [BitVec.toNat_append, ← Nat.shiftLeft_add_eq_or_of_lt lo.isLt, Nat.shiftLeft_eq]

theorem wordBytes_eq (w : Word) : wordBytes w = [BitVec.ofNat 8 (w.toNat % 256), BitVec.ofNat 8 (w.toNat / 256)] := by
  have low : lowByte w = BitVec.ofNat 8 (w.toNat % 256) := by
    apply BitVec.eq_of_toNat_eq
    simp [lowByte]
  have high : highByte w = BitVec.ofNat 8 (w.toNat / 256) := by
    apply BitVec.eq_of_toNat_eq
    simp [highByte, Nat.shiftRight_eq_div_pow]
  rw [wordBytes, low, high]

theorem attributeModeOf_eq (m : Byte) :
    attributeModeOf m = if m = 0 ∨ m = 1 then some (if m = 1 then .apply else .keep) else none := by
  unfold attributeModeOf
  by_cases h0 : m = 0
  · subst h0
    rfl
  · by_cases h1 : m = 1
    · subst h1
      rfl
    · rw [if_neg h0, if_neg h1, if_neg (not_or.2 ⟨h0, h1⟩)]

/-! ## Bytes placed in distinct cells -/

/-- The k-th byte with the k-th cell. -/
def placed (cell : Nat → Nat) (bytes : List Byte) : List (Nat × Byte) := ((List.range bytes.length).map cell).zip bytes

theorem placed_map_fst (cell : Nat → Nat) (bytes : List Byte) :
    (placed cell bytes).map Prod.fst = (List.range bytes.length).map cell :=
  List.map_fst_zip (by simp)

theorem placed_map_const (cell : Nat → Nat) (bytes : List Byte) (v : Byte) :
    (placed cell bytes).map (fun d => (d.1, v)) = placed cell (List.replicate bytes.length v) := by
  apply List.ext_getElem <;> simp [placed]

theorem mem_placed {cell : Nat → Nat} {bytes : List Byte} {k : Nat} (hk : k < bytes.length) :
    (cell k, bytes.getD k 0) ∈ placed cell bytes := by
  refine List.mem_iff_getElem.2 ⟨k, by simpa [placed] using hk, ?_⟩
  simp [placed, hk]

theorem exists_of_mem_placed {cell : Nat → Nat} {bytes : List Byte} {d : Nat × Byte} (hd : d ∈ placed cell bytes) :
    ∃ k < bytes.length, d.1 = cell k := by
  have hd := List.mem_map_of_mem (f := Prod.fst) hd
  rw [placed_map_fst] at hd
  obtain ⟨k, hk, e⟩ := List.mem_map.1 hd
  exact ⟨k, List.mem_range.1 hk, e.symm⟩

/-- The first `n` cells differ from one another. -/
def distinctCells (cell : Nat → Nat) (n : Nat) : Prop := ∀ i < n, ∀ j < n, cell i = cell j → i = j

theorem memRead_placed {m : Memory} {cell : Nat → Nat} {bytes : List Byte} (hm : m.wf = true)
    (hd : distinctCells cell bytes.length) {k : Nat} (hk : k < bytes.length) :
    memRead (memWriteAll m (placed cell bytes)) (cell k) = bytes.getD k 0 := by
  refine memRead_memWriteAll_of_mem (placed cell bytes) (cell k, bytes.getD k 0) m hm ?_ (mem_placed hk)
  rw [placed_map_fst]
  exact List.Nodup.map_on (fun i hi j hj e => hd i (List.mem_range.1 hi) j (List.mem_range.1 hj) e) List.nodup_range

theorem memRead_placed_other {m : Memory} {cell : Nat → Nat} {bytes : List Byte} (hm : m.wf = true) {j : Nat}
    (hj : ∀ k < bytes.length, j ≠ cell k) : memRead (memWriteAll m (placed cell bytes)) j = memRead m j := by
  refine memRead_memWriteAll_of_notMem (placed cell bytes) j m hm fun d hd e => ?_
  obtain ⟨k, hk, hdk⟩ := exists_of_mem_placed hd
  exact hj k hk (e.symm.trans hdk)

/-- R49: the canvas `u` is `c` with the bytes placed in their cells, and in Apply mode with this set in each of them. -/
structure CellsWritten (mode : AttributeMode) (a : AttributeSet) (cell : Nat → Nat) (bytes : List Byte) (c u : Canvas) : Prop where
  cursor : u.cursor = c.cursor
  step : u.step = c.step
  pixels : ∀ k < bytes.length, memRead u.pixels (cell k) = bytes.getD k 0
  attributes : ∀ k < bytes.length, memRead u.attributes (cell k) =
    match mode with
    | .keep => memRead c.attributes (cell k)
    | .apply => attributesByte a
  others : ∀ j, (∀ k < bytes.length, j ≠ cell k) →
    memRead u.pixels j = memRead c.pixels j ∧ memRead u.attributes j = memRead c.attributes j

theorem writeCells_placed (mode : AttributeMode) (a : AttributeSet) {cell : Nat → Nat} {bytes : List Byte} {c : Canvas}
    (hp : c.pixels.wf = true) (ha : c.attributes.wf = true) (hd : distinctCells cell bytes.length) :
    CellsWritten mode a cell bytes c (writeCells mode a (placed cell bytes) c) where
  cursor := (writeCells_cursor mode a _ c).1
  step := (writeCells_cursor mode a _ c).2
  pixels := fun k hk => by rw [writeCells_pixels, memRead_placed hp hd hk]
  attributes := fun k hk => by
    rw [writeCells_attributes]
    cases mode with
    | keep => rfl
    | apply =>
      dsimp only
      rw [placed_map_const, memRead_placed ha (by simpa using hd) (by simpa using hk)]
      simp [hk]
  others := fun j hj => by
    rw [writeCells_pixels, writeCells_attributes]
    refine ⟨memRead_placed_other hp hj, ?_⟩
    cases mode with
    | keep => rfl
    | apply =>
      dsimp only
      rw [placed_map_const, memRead_placed_other ha (by simpa using hj)]

/-- R46, R49: the second plane at the written cells, by the code of the mode. -/
theorem CellsWritten.attributes_byte {m b : Byte} {cell : Nat → Nat} {bytes : List Byte} {c u : Canvas}
    (h : CellsWritten (if m = 1 then .apply else .keep) (attributesOf b) cell bytes c u) {k : Nat} (hk : k < bytes.length) :
    memRead u.attributes (cell k) = if m = 1 then b &&& 0x07 else memRead c.attributes (cell k) := by
  rw [h.attributes k hk]
  by_cases hm : m = 1
  · simp only [hm, if_true, attributesByte_attributesOf]
  · simp only [hm, if_false]

/-! ## The bodies of the canvas requests -/

/-- R48: the starting cell, where column and row lie in their ranges. -/
theorem runStartOf_eq (c r : Byte) (rest : List Byte) :
    runStartOf (c :: r :: rest) = if c.toNat ≤ 31 ∧ r.toNat ≤ 127 then some (r.toNat * 32 + c.toNat) else none := by
  have hc : byteAt (c :: r :: rest) 0 = c := rfl
  have hr : byteAt (c :: r :: rest) 1 = r := rfl
  simp only [runStartOf, hc, hr, inRange, Nat.zero_le, decide_true, Bool.true_and, Bool.and_eq_true, decide_eq_true_eq, cellIndex,
    Config.cellsPerRow]

theorem writeCanvasBody_eq (c r m a : Byte) {pixels : List Byte} (s : State) (h1 : 1 ≤ pixels.length) (h56 : pixels.length ≤ 56) :
    writeCanvasBody (c :: r :: m :: a :: pixels) s =
      if c.toNat ≤ 31 ∧ r.toNat ≤ 127 ∧ (m = 0 ∨ m = 1) ∧ r.toNat * 32 + c.toNat + pixels.length ≤ 4096 then
        doneWith { s with
          canvas := writeCells (if m = 1 then .apply else .keep) (attributesOf a)
            (placed (fun k => r.toNat * 32 + c.toNat + k) pixels) s.canvas }
      else .fail .outOfRange [] := by
  have hm : byteAt (c :: r :: m :: a :: pixels) 2 = m := rfl
  have hl : (c :: r :: m :: a :: pixels).length = pixels.length + 4 := rfl
  unfold writeCanvasBody
  rw [if_neg (by omega), runStartOf_eq, hm, attributeModeOf_eq]
  by_cases hs : c.toNat ≤ 31 ∧ r.toNat ≤ 127
  · by_cases hmode : m = 0 ∨ m = 1
    · simp only [hl, hs.1, hs.2, hmode, true_and, runFits, decide_eq_true_eq, Config.canvasCells,
        Nat.add_sub_cancel]
      rfl
    · simp only [if_pos hs, hmode, false_and, and_false, if_false]
  · have hs' : ¬ (c.toNat ≤ 31 ∧ r.toNat ≤ 127 ∧ (m = 0 ∨ m = 1) ∧ r.toNat * 32 + c.toNat + pixels.length ≤ 4096) :=
      fun h => hs ⟨h.1, h.2.1⟩
    simp only [if_neg hs, if_neg hs']

theorem writeAttributesBody_eq (c r : Byte) {sets : List Byte} (s : State) (h1 : 1 ≤ sets.length) (h58 : sets.length ≤ 58) :
    writeAttributesBody (c :: r :: sets) s =
      if c.toNat ≤ 31 ∧ r.toNat ≤ 127 ∧ r.toNat * 32 + c.toNat + sets.length ≤ 4096 then
        doneWith { s with
          canvas := { s.canvas with
            attributes := memWriteRun s.canvas.attributes (r.toNat * 32 + c.toNat) (sets.map storedAttributes) } }
      else .fail .outOfRange [] := by
  have hl : (c :: r :: sets).length = sets.length + 2 := rfl
  unfold writeAttributesBody
  rw [if_neg (by omega), runStartOf_eq]
  by_cases hs : c.toNat ≤ 31 ∧ r.toNat ≤ 127
  · simp only [hl, hs.1, hs.2, true_and, runFits, decide_eq_true_eq, Config.canvasCells, Nat.add_sub_cancel]
    rfl
  · have hs' : ¬ (c.toNat ≤ 31 ∧ r.toNat ≤ 127 ∧ r.toNat * 32 + c.toNat + sets.length ≤ 4096) := fun h => hs ⟨h.1, h.2.1⟩
    simp only [if_neg hs, if_neg hs']

/-- R46: a byte of the second plane as a cell holds it. -/
theorem storedAttributes_eq (b : Byte) : storedAttributes b = b &&& 0x07 := attributesByte_attributesOf b

theorem clearCanvasBody_eq (v a : Byte) (s : State) :
    clearCanvasBody [v, a] s =
      if v = 0 ∨ v = 1 then
        doneWith { s with
          canvas := { s.canvas with
            pixels := memFill 4096 (if v = 1 then 0xFF else 0), attributes := memFill 4096 (a &&& 0x07) } }
      else .fail .outOfRange [] := by
  have hv : byteAt [v, a] 0 = v := rfl
  have ha : byteAt [v, a] 1 = a := rfl
  simp only [clearCanvasBody, hv, ha, isBit, storedAttributes_eq, Bool.or_eq_true, beq_iff_eq]
  rfl

/-! ## The cursor (R55 to R57) -/

theorem cursorStepOf_eq (b : Byte) :
    cursorStepOf b = if b = 0 ∨ b = 1 then some (if b = 0 then .forward else .backward) else none := by
  unfold cursorStepOf
  by_cases h0 : b = 0
  · subst h0
    rfl
  · by_cases h1 : b = 1
    · subst h1
      rfl
    · rw [if_neg h0, if_neg h1, if_neg (not_or.2 ⟨h0, h1⟩)]

theorem setCursorBody_eq (lo hi step : Byte) (s : State) :
    setCursorBody [lo, hi, step] s =
      if hi.toNat * 256 + lo.toNat < 4096 ∧ (step = 0 ∨ step = 1) then
        doneWith { s with
          canvas := { s.canvas with
            cursor := BitVec.ofNat 12 (hi.toNat * 256 + lo.toNat), step := if step = 0 then .forward else .backward } }
      else .fail .outOfRange [] := by
  have hw : (wordAt [lo, hi, step] 0).toNat = hi.toNat * 256 + lo.toNat := append_toNat hi lo
  have hcell : (wordAt [lo, hi, step] 0).setWidth 12 = BitVec.ofNat 12 (hi.toNat * 256 + lo.toNat) := by
    rw [← hw]
    rfl
  have hstep : byteAt [lo, hi, step] 2 = step := rfl
  unfold setCursorBody
  rw [hw, hcell, hstep, cursorStepOf_eq, if_neg (by simp)]
  by_cases hc : hi.toNat * 256 + lo.toNat < 4096
  · rw [if_neg (by simpa [Config.canvasCells] using hc)]
    by_cases hs : step = 0 ∨ step = 1
    · rw [if_pos hs, if_pos (And.intro hc hs)]
    · rw [if_neg hs, if_neg fun h => hs h.2]
  · rw [if_pos (by simpa [Config.canvasCells] using hc), if_neg fun h => hc h.1]

/-- R57: the cell k steps on from the cursor. -/
theorem cursorAfter_toNat (c : Canvas) {k : Nat} (hk : k ≤ 4096) : (cursorAfter c.cursor c.step k).toNat = steppedCell c k := by
  have hc : c.cursor.toNat < 4096 := c.cursor.isLt
  unfold cursorAfter steppedCell
  cases c.step with
  | forward =>
    simp only [BitVec.toNat_add, BitVec.toNat_ofNat]
    omega
  | backward =>
    simp only [BitVec.toNat_sub, BitVec.toNat_ofNat]
    omega

theorem steppedCell_distinct (c : Canvas) {n : Nat} (hn : n ≤ 4096) : distinctCells (steppedCell c) n := by
  intro i hi j hj e
  have hc : c.cursor.toNat < 4096 := c.cursor.isLt
  unfold steppedCell at e
  cases hs : c.step with
  | forward =>
    simp only [hs] at e
    omega
  | backward =>
    simp only [hs] at e
    omega

theorem cursorCells_eq (c : Canvas) {pixels : List Byte} (hl : pixels.length ≤ 4096) :
    cursorCells c.cursor c.step pixels = placed (steppedCell c) pixels := by
  unfold cursorCells placed
  rw [List.map_congr_left fun k hk => cursorAfter_toNat c (by have := List.mem_range.1 hk; omega)]

theorem writeAtCursorBody_eq (m a : Byte) {pixels : List Byte} (s : State) (h1 : 1 ≤ pixels.length) (h57 : pixels.length ≤ 57) :
    writeAtCursorBody (m :: a :: pixels) s =
      if m = 0 ∨ m = 1 then
        doneReading
          { s with canvas := writtenAtCursor (if m = 1 then .apply else .keep) (attributesOf a) pixels s.canvas }
          [BitVec.ofNat 8 (steppedCell s.canvas pixels.length % 256), BitVec.ofNat 8 (steppedCell s.canvas pixels.length / 256)]
      else .fail .outOfRange [] := by
  have hm : byteAt (m :: a :: pixels) 0 = m := rfl
  have hl : (m :: a :: pixels).length = pixels.length + 2 := rfl
  have hcell := cursorAfter_toNat s.canvas (k := pixels.length) (by omega)
  have hword : ((cursorAfter s.canvas.cursor s.canvas.step pixels.length).setWidth 16).toNat = steppedCell s.canvas pixels.length := by
    rw [← hcell]
    simp only [BitVec.toNat_setWidth]
    omega
  unfold writeAtCursorBody
  rw [if_neg (by omega), hm, attributeModeOf_eq]
  by_cases hmode : m = 0 ∨ m = 1
  · simp only [if_pos hmode, wordBytes_eq]
    rw [← hword]
    rfl
  · simp only [if_neg hmode]

end Sys2Proof.Machine

namespace Sys2Proof.Proofs

open Sys2Proof.Machine

/-- Settles O4: the body at a run of a legal size, and what its writes leave in every cell. -/
theorem canvasRunsAreWritten : Obligations.CanvasRunsAreWritten := by
  refine ⟨answersBadSize_of_body rfl fun p s hn => if_pos (by omega), answersBadSize_of_body rfl fun p s hn => if_pos (by omega),
    fun tag s hp ha => ⟨fun c r m a pixels h h1 h56 => ?_, fun c r sets h h1 h58 => ?_⟩⟩
  · have hbody := writeCanvasBody_eq c r m a (beginExecution s) h1 h56
    split
    next hok =>
      rw [if_pos hok] at hbody
      have written := writeCells_placed (if m = 1 then .apply else .keep) (attributesOf a) (bytes := pixels)
        (cell := fun k => r.toNat * 32 + c.toNat + k) hp ha fun i _ j _ e => Nat.add_left_cancel e
      exact ⟨_, exec_of_done rfl h hbody rfl rfl, written.cursor, written.step, written.pixels, fun k hk => written.attributes_byte hk,
        fun cell hcell => written.others cell fun k hk => by omega⟩
    next hbad => exact exec_of_outOfRange rfl h (hbody.trans (if_neg hbad))
  · have hbody := writeAttributesBody_eq c r (beginExecution s) h1 h58
    split
    next hok =>
      rw [if_pos hok] at hbody
      refine ⟨_, exec_of_done rfl h hbody rfl rfl, fun k hk => ?_, fun cell hcell => ?_⟩
      · rw [beginExecution_canvas, memRead_memWriteRun _ _ _ _ ha, List.length_map, if_pos (by omega), Nat.add_sub_cancel_left]
        simp [hk, storedAttributes_eq]
      · rw [beginExecution_canvas, memRead_memWriteRun _ _ _ _ ha, List.length_map, if_neg (by omega)]
    next hbad => exact exec_of_outOfRange rfl h (hbody.trans (if_neg hbad))

/-- Settles O6: every cell of a filled plane reads as what it was filled with. -/
theorem clearCanvasFillsEveryCell : Obligations.ClearCanvasFillsEveryCell := by
  refine ⟨answersBadSize_of_body rfl fun p s hn => if_pos hn, fun tag v a s h => ?_⟩
  have hbody := clearCanvasBody_eq v a (beginExecution s)
  split
  next hok =>
    exact ⟨_, _, exec_of_done rfl h (hbody.trans (if_pos hok)) rfl rfl,
      fun cell hcell => ⟨memRead_memFill _ _ _ hcell, memRead_memFill _ _ _ hcell⟩⟩
  next hbad => exact exec_of_outOfRange rfl h (hbody.trans (if_neg hbad))

/-- Settles O7: SET CURSOR by its fields; WRITE AT CURSOR by what its writes leave in every cell. -/
theorem cursorRequestsAnswer : Obligations.CursorRequestsAnswer := by
  refine ⟨answersBadSize_of_body rfl fun p s hn => if_pos hn, answersBadSize_of_body rfl fun p s hn => if_pos (by omega),
    fun tag s => ⟨fun lo hi step h => ?_, fun m a pixels hp ha h h1 h57 => ?_⟩⟩
  · have hbody := setCursorBody_eq lo hi step (beginExecution s)
    split
    next hok => exact exec_of_done rfl h (hbody.trans (if_pos hok)) rfl rfl
    next hbad => exact exec_of_outOfRange rfl h (hbody.trans (if_neg hbad))
  · have hbody := writeAtCursorBody_eq m a (beginExecution s) h1 h57
    split
    next hok =>
      have written := writeCells_placed (if m = 1 then .apply else .keep) (attributesOf a) hp ha
        (steppedCell_distinct s.canvas (n := pixels.length) (by omega))
      rw [← cursorCells_eq s.canvas (by omega)] at written
      exact ⟨_, exec_of_done rfl h (hbody.trans (if_pos hok)) rfl rfl, cursorAfter_toNat s.canvas (by omega), written.step,
        written.pixels, fun k hk => written.attributes_byte hk, written.others⟩
    next hbad => exact exec_of_outOfRange rfl h (hbody.trans (if_neg hbad))

end Sys2Proof.Proofs
end

section
/-! PROOFS. The statement about the view requests (R36, R61, R62, R65 to R68). -/

namespace Sys2Proof.Machine

/-- R38: a code with the values 0 and 1. -/
theorem isBit_iff (b : Byte) : isBit b = true ↔ b = 0 ∨ b = 1 := by
  simp only [isBit, Bool.or_eq_true, beq_iff_eq]

/-- R38: a number field. -/
theorem inRange_iff (lo hi : Nat) (b : Byte) : inRange lo hi b = true ↔ lo ≤ b.toNat ∧ b.toNat ≤ hi := by
  simp only [inRange, Bool.and_eq_true, decide_eq_true_eq]

/-- R62: the checks of SET VIEW on a payload, field by field. -/
theorem viewRecordAccepted_iff (p : List Byte) :
    viewRecordAccepted p 2 = true ↔
      (byteAt p 3).toNat ≤ 159 ∧ (byteAt p 4).toNat ≤ 63 ∧ 8 ≤ (byteAt p 5).toNat ∧ (byteAt p 5).toNat ≤ 160 ∧
      1 ≤ (byteAt p 6).toNat ∧ (byteAt p 6).toNat ≤ 64 ∧ (byteAt p 10).toNat ≤ 127 ∧ (byteAt p 12).toNat ≤ 127 ∧
      (byteAt p 9).toNat ≤ (byteAt p 11).toNat ∧ (byteAt p 10).toNat ≤ (byteAt p 12).toNat ∧
      ((byteAt p 9).toNat ≤ (byteAt p 7).toNat ∧ (byteAt p 7).toNat ≤ (byteAt p 11).toNat) ∧
      ((byteAt p 10).toNat ≤ (byteAt p 8).toNat ∧ (byteAt p 8).toNat ≤ (byteAt p 12).toNat) ∧
      (byteAt p 14 = 0 ∨ byteAt p 14 = 1) ∧ (byteAt p 16 = 0 ∨ byteAt p 16 = 1) := by
  rw [viewRecordAccepted, Bool.and_eq_true, and_comm]
  simp only [ViewRecord.legal, ViewRecord.inBand, viewRecordAt, inRange_iff, Bool.and_eq_true, isBit_iff, decide_eq_true_eq,
    BitVec.le_def, Nat.zero_le, true_and, Nat.reduceAdd, and_assoc]

/-- R61: the bytes of a record, with its flags and directions spelled out. -/
theorem viewBytes_eq (v : View) :
    viewBytes v =
      [(if v.record.enabled then 1 else 0) ||| (if v.record.inverse then 2 else 0), v.record.left, v.record.top,
       v.record.width, v.record.height, v.record.originX, v.record.originY, v.record.bandLeft, v.record.bandTop,
       v.record.bandRight, v.record.bandBottom, v.record.verticalRate,
       if v.record.verticalDirection = .up then 0 else 1, v.record.horizontalRate,
       if v.record.horizontalDirection = .left then 0 else 1, v.verticalCount, v.horizontalCount] := by
  have hv : ∀ d : VerticalDirection, verticalByte d = if d = .up then 0 else 1 := by
    intro d
    cases d <;> rfl
  have hh : ∀ d : HorizontalDirection, horizontalByte d = if d = .left then 0 else 1 := by
    intro d
    cases d <;> rfl
  simp only [viewBytes, viewRecordBytes, hv, hh]
  rfl

section
variable {payload : List Byte} {s : State}

theorem viewNameOf_of_named {t : ViewTable} {i : Fin 4} (ht : tableOf (byteAt payload 0) = some t)
    (hi : viewIndexOf (byteAt payload 1) = some i) : viewNameOf payload = some (t, i) := by
  simp only [viewNameOf, ht, hi]

theorem viewNameOf_of_no_table (ht : tableOf (byteAt payload 0) = none) : viewNameOf payload = none := by
  simp only [viewNameOf, ht]

theorem viewNameOf_of_no_index (hi : viewIndexOf (byteAt payload 1) = none) : viewNameOf payload = none := by
  unfold viewNameOf
  rw [hi]
  cases tableOf (byteAt payload 0) <;> rfl

theorem setViewBody_of_named {t : ViewTable} {i : Fin 4} (hl : payload.length = 17) (hn : viewNameOf payload = some (t, i)) :
    setViewBody payload s =
      if viewRecordAccepted payload 2 then
        doneWith { s with views := s.views.setView t i { record := viewRecordAt payload 2, verticalCount := 0, horizontalCount := 0 } }
      else .fail .outOfRange [] := by
  unfold setViewBody
  rw [if_neg (not_not.2 hl), hn]

theorem setViewBody_of_unnamed (hl : payload.length = 17) (hn : viewNameOf payload = none) :
    setViewBody payload s = .fail .outOfRange [] := by
  unfold setViewBody
  rw [if_neg (not_not.2 hl), hn]

theorem getViewBody_of_named {t : ViewTable} {i : Fin 4} (hl : payload.length = 2) (hn : viewNameOf payload = some (t, i)) :
    getViewBody payload s = doneReading s (viewBytes (s.views.table t)[i]) := by
  unfold getViewBody
  rw [if_neg (not_not.2 hl), hn]

theorem getViewBody_of_unnamed (hl : payload.length = 2) (hn : viewNameOf payload = none) :
    getViewBody payload s = .fail .outOfRange [] := by
  unfold getViewBody
  rw [if_neg (not_not.2 hl), hn]

end

end Sys2Proof.Machine

namespace Sys2Proof.Proofs

open Sys2Proof.Machine

/-- Settles O8: each request by the view or the code that its payload names, SET VIEW by the checks of the record. -/
theorem viewRequestsAnswer : Obligations.ViewRequestsAnswer := by
  refine ⟨⟨answersBadSize_of_body rfl fun p s hn => if_pos hn, answersBadSize_of_body rfl fun p s hn => if_pos hn,
    answersBadSize_of_body rfl fun p s hn => if_pos hn, answersBadSize_of_body rfl fun p s hn => if_pos hn⟩, fun tag s => ⟨?_, ?_, ?_, ?_⟩⟩
  · intro t i flags left top width height ox oy bl bt br bb vr vd hr hd h
    cases ht : tableOf t with
    | none => exact exec_of_outOfRange rfl h (setViewBody_of_unnamed rfl (viewNameOf_of_no_table ht))
    | some table =>
      cases hi : viewIndexOf i with
      | none => exact exec_of_outOfRange rfl h (setViewBody_of_unnamed rfl (viewNameOf_of_no_index hi))
      | some index =>
        have hbody := setViewBody_of_named (s := beginExecution s) rfl (viewNameOf_of_named
          (payload := [t, i, flags, left, top, width, height, ox, oy, bl, bt, br, bb, vr, vd, hr, hd]) ht hi)
        have accepted := viewRecordAccepted_iff [t, i, flags, left, top, width, height, ox, oy, bl, bt, br, bb, vr, vd, hr, hd]
        dsimp only
        split
        next hok => exact exec_of_done rfl h (hbody.trans (if_pos (accepted.2 hok))) rfl rfl
        next hbad => exact exec_of_outOfRange rfl h (hbody.trans (if_neg fun ha => hbad (accepted.1 ha)))
  · intro t i h
    cases ht : tableOf t with
    | none => exact exec_of_outOfRange rfl h (getViewBody_of_unnamed rfl (viewNameOf_of_no_table ht))
    | some table =>
      cases hi : viewIndexOf i with
      | none => exact exec_of_outOfRange rfl h (getViewBody_of_unnamed rfl (viewNameOf_of_no_index hi))
      | some index =>
        have hbody := getViewBody_of_named (s := beginExecution s) rfl (viewNameOf_of_named (payload := [t, i]) ht hi)
        rw [viewBytes_eq] at hbody
        exact exec_of_reading rfl h hbody
  · intro b h
    split
    next h0 =>
      subst h0
      exact exec_of_done rfl h rfl rfl rfl
    next h0 =>
      split
      next h1 =>
        subst h1
        exact exec_of_done rfl h rfl rfl rfl
      next h1 => exact exec_of_outOfRange rfl h (if_neg fun hb => ((isBit_iff b).1 hb).elim h0 h1)
  · intro b h
    split
    next h0 =>
      subst h0
      exact exec_of_done rfl h rfl rfl rfl
    next h0 =>
      split
      next h1 =>
        subst h1
        exact exec_of_done rfl h rfl rfl rfl
      next h1 =>
        have unnamed : tableOf b = none := by rw [tableOf, if_neg h0, if_neg h1]
        refine exec_of_outOfRange rfl h ?_
        show selectViewsBody [b] (beginExecution s) = _
        simp [selectViewsBody, byteAt, unnamed]

end Sys2Proof.Proofs
end

section
/-! PROOFS. The statements about the staging memory and the chains (R36, R97 to R99, R112, R113, R120 to R122). -/

namespace Sys2Proof.Machine

/-! ## STAGE (R98, R99) -/

section
variable {pool : Vector PoolSlot 32} {start n : Nat}

/-- R99: a Held COPY locks a run where the two ranges of the staging memory meet. -/
theorem slotLocks_iff (x : PoolSlot) :
    slotLocks start n x = true ↔ ∃ handle d offset r m a, x = .held handle d ∧ d.action = .copy offset r m a ∧
      start < offset.toNat + rectangleArea r ∧ offset.toNat < start + n := by
  cases x with
  | free => simp [slotLocks]
  | loaded d => simp [slotLocks]
  | held handle d =>
    obtain ⟨action, next, release⟩ := d
    cases action <;> simp [slotLocks]

theorem stagingLocked_iff : stagingLocked pool start n = true ↔ ∃ i : Fin 32, slotLocks start n pool[i] = true := by
  simp only [stagingLocked, List.any_eq_true, Vector.mem_toList_iff]
  constructor
  · rintro ⟨x, hx, hl⟩
    obtain ⟨i, hi, rfl⟩ := Vector.mem_iff_getElem.1 hx
    exact ⟨⟨i, hi⟩, hl⟩
  · rintro ⟨i, hl⟩
    exact ⟨pool[i], Vector.getElem_mem i.isLt, hl⟩

/-- R105: the rectangle of a COPY in a legal pool is not empty. -/
theorem rectangleArea_pos (hp : PoolLegal pool) {i : Fin 32} {handle : Byte} {d : Descriptor} {offset : Word} {r : Rectangle}
    {m : AttributeMode} {a : AttributeSet} (hi : pool[i] = .held handle d) (hd : d.action = .copy offset r m a) :
    1 ≤ rectangleArea r := by
  have legal := hp i d (by rw [hi]; rfl)
  rw [hd] at legal
  obtain ⟨⟨width, height, -, -⟩, -⟩ := legal
  exact Nat.mul_pos width height

/-- R99: the run is locked where some offset of it lies in the staging range of a Held COPY. -/
theorem stagingLocked_iff_shared (hp : PoolLegal pool) (hn : 1 ≤ n) :
    stagingLocked pool start n = true ↔
      ∃ (i : Fin 32) (handle : Byte) (d : Descriptor) (offset : Word) (r : Rectangle) (m : AttributeMode) (a : AttributeSet) (k : Nat),
        pool[i] = .held handle d ∧ d.action = .copy offset r m a ∧ (start ≤ k ∧ k < start + n) ∧
          offset.toNat ≤ k ∧ k < offset.toNat + r.width.toNat * r.height.toNat := by
  rw [stagingLocked_iff]
  constructor
  · rintro ⟨i, hl⟩
    obtain ⟨handle, d, offset, r, m, a, hi, hd, below, above⟩ := (slotLocks_iff _).1 hl
    have area := rectangleArea_pos hp hi hd
    refine ⟨i, handle, d, offset, r, m, a, max start offset.toNat, hi, hd, ⟨by omega, by omega⟩, by omega, ?_⟩
    show max start offset.toNat < offset.toNat + rectangleArea r
    omega
  · rintro ⟨i, handle, d, offset, r, m, a, k, hi, hd, ⟨hsk, hks⟩, hok, hko⟩
    refine ⟨i, (slotLocks_iff _).2 ⟨handle, d, offset, r, m, a, hi, hd, ?_, by omega⟩⟩
    show start < offset.toNat + r.width.toNat * r.height.toNat
    omega

end

theorem stageBody_eq (lo hi : Byte) {bytes : List Byte} (s : State) (h1 : 1 ≤ bytes.length) (h58 : bytes.length ≤ 58) :
    stageBody (lo :: hi :: bytes) s =
      if 1024 < hi.toNat * 256 + lo.toNat + bytes.length then .fail .outOfRange []
      else if stagingLocked s.chains.pool (hi.toNat * 256 + lo.toNat) bytes.length then .fail .locked []
      else doneWith { s with staging := memWriteRun s.staging (hi.toNat * 256 + lo.toNat) bytes } := by
  have hw : (wordAt (lo :: hi :: bytes) 0).toNat = hi.toNat * 256 + lo.toNat := append_toNat hi lo
  have hl : (lo :: hi :: bytes).length = bytes.length + 2 := rfl
  unfold stageBody
  dsimp only
  rw [if_neg (by omega), hw, hl, Nat.add_sub_cancel]
  rfl

/-! ## Slot numbers and due frames (R102, R112) -/

theorem slotOf_of_lt {b : Byte} (h : b.toNat < 32) : slotOf b = some ⟨b.toNat, h⟩ := dif_pos h

theorem slotOf_of_ge {b : Byte} (h : ¬ b.toNat < 32) : slotOf b = none := dif_neg h

theorem slotOf_ofNat (i : Fin 32) : slotOf (BitVec.ofNat 8 i.val) = some i := by
  have hi : (BitVec.ofNat 8 i.val).toNat = i.val := by
    rw [BitVec.toNat_ofNat]
    omega
  rw [slotOf_of_lt (by omega)]
  exact congrArg some (Fin.ext hi)

theorem dueFrameOf_isSome_iff (kind lo hi : Byte) (counter : Word) :
    (dueFrameOf kind (hi ++ lo) counter).isSome = true ↔ kind = 0 ∨ (kind = 1 ∧ hi = 0 ∧ lo ≠ 0) ∨ kind = 2 := by
  have word : (1 ≤ (hi ++ lo : Word).toNat ∧ (hi ++ lo : Word).toNat ≤ 255) ↔ hi = 0 ∧ lo ≠ 0 := by
    rw [append_toNat, BitVec.toNat_eq, ne_eq, BitVec.toNat_eq]
    simp only [BitVec.ofNat_eq_ofNat, BitVec.toNat_ofNat]
    have := lo.isLt
    omega
  unfold dueFrameOf
  by_cases h0 : kind = 0
  · rw [if_pos h0]
    exact iff_of_true rfl (.inl h0)
  · by_cases h1 : kind = 1
    · subst h1
      rw [if_neg h0, if_pos rfl]
      by_cases hw : 1 ≤ (hi ++ lo : Word).toNat ∧ (hi ++ lo : Word).toNat ≤ 255
      · rw [if_pos hw]
        exact iff_of_true rfl (.inr (.inl ⟨rfl, word.1 hw⟩))
      · rw [if_neg hw]
        refine iff_of_false nofun ?_
        rintro (h | ⟨-, h⟩ | h)
        · exact h0 h
        · exact hw (word.2 h)
        · exact absurd h (by decide)
    · rw [if_neg h0, if_neg h1]
      by_cases h2 : kind = 2
      · rw [if_pos h2]
        exact iff_of_true rfl (.inr (.inr h2))
      · rw [if_neg h2]
        exact iff_of_false nofun fun h => h.elim h0 fun h => h.elim (fun h => h1 h.1) h2

/-! ## SUBMIT CHAIN (R112, R113) -/

section
variable {h kind lo hi flags : Byte} {s : State}

/-- R112: the fields of SUBMIT CHAIN that are in their ranges. -/
theorem submitChainBody_of_legal (hh : h.toNat < 32) (hk : kind = 0 ∨ (kind = 1 ∧ hi = 0 ∧ lo ≠ 0) ∨ kind = 2) :
    ∃ due, submitChainBody [h, kind, lo, hi, flags] s = submitSound ⟨h.toNat, hh⟩ due (flags.getLsbD 0) s := by
  obtain ⟨due, hdue⟩ := Option.isSome_iff_exists.1 ((dueFrameOf_isSome_iff kind lo hi s.frames.counter).2 hk)
  have hslot : slotOf (byteAt [h, kind, lo, hi, flags] 0) = some ⟨h.toNat, hh⟩ := slotOf_of_lt hh
  have hframe : dueFrameOf (byteAt [h, kind, lo, hi, flags] 1) (wordAt [h, kind, lo, hi, flags] 2) s.frames.counter = some due := hdue
  refine ⟨due, ?_⟩
  unfold submitChainBody
  rw [if_neg (by simp), hslot, hframe]
  rfl

theorem submitChainBody_of_illegal (hn : ¬ (h.toNat < 32 ∧ (kind = 0 ∨ (kind = 1 ∧ hi = 0 ∧ lo ≠ 0) ∨ kind = 2))) :
    submitChainBody [h, kind, lo, hi, flags] s = .fail .outOfRange [] := by
  unfold submitChainBody
  rw [if_neg (by simp)]
  by_cases hh : h.toNat < 32
  · have hframe : dueFrameOf (byteAt [h, kind, lo, hi, flags] 1) (wordAt [h, kind, lo, hi, flags] 2) s.frames.counter = none :=
      Option.not_isSome_iff_eq_none.1 fun hd => hn ⟨hh, (dueFrameOf_isSome_iff kind lo hi _).1 hd⟩
    rw [hframe]
    cases slotOf (byteAt [h, kind, lo, hi, flags] 0) <;> rfl
  · have hslot : slotOf (byteAt [h, kind, lo, hi, flags] 0) = none := slotOf_of_ge hh
    rw [hslot]

variable {head : Fin 32} {due : Word} {urgent : Bool}

theorem submitSound_of_doze (hp : s.power.state = .doze) : submitSound head due urgent s = .fail .wrongState [] := if_pos hp

theorem submitSound_of_full (hp : s.power.state ≠ .doze) (hq : 4 ≤ s.chains.queue.length) :
    submitSound head due urgent s = .fail .noRoom [] := by
  unfold submitSound
  rw [if_neg hp]
  exact if_pos hq

/-- R113: a walk that fails. -/
theorem submitSound_of_failed {position : Nat} {reason : WalkFault} {slot : Fin 32} (hp : s.power.state ≠ .doze)
    (hq : s.chains.queue.length < 4) (hw : walkChain s.chains.pool [] 31 head = .failed position reason slot) :
    submitSound head due urgent s =
      .fail .invalidChain [BitVec.ofNat 8 position, walkFaultByte reason, BitVec.ofNat 8 slot.val] := by
  have room : ¬ Config.chainPlaces ≤ s.chains.queue.length := Nat.not_le.2 hq
  unfold submitSound
  rw [if_neg hp, if_neg room, hw]

end

section
variable {pool : Vector PoolSlot 32} {visited : List (Fin 32)} {left : Nat} {slot : Fin 32}

/-- R113: the walk fails at a slot that is not Loaded. -/
theorem walkChain_at_unloaded (hn : ∀ d, pool[slot] ≠ .loaded d) :
    walkChain pool visited left slot = .failed visited.length .notLoaded slot := by
  have unloaded : loadedRecord pool[slot] = none := by
    cases hl : loadedRecord pool[slot] with
    | none => rfl
    | some d => exact absurd ((loadedRecord_eq_some _ d).1 hl) (hn d)
  rw [walkChain.eq_def]
  dsimp only
  rw [unloaded]

/-- R113: the walk fails at a Loaded slot that it has visited before. -/
theorem walkChain_at_visited {d : Descriptor} (hd : pool[slot] = .loaded d) (hv : slot ∈ visited) :
    walkChain pool visited left slot = .failed visited.length .revisited slot := by
  rw [walkChain.eq_def]
  dsimp only
  rw [(loadedRecord_eq_some _ d).2 hd]
  exact if_pos hv

/-- R113: every slot of a linked run of Loaded slots is Loaded. -/
theorem loaded_of_mem_loadedPath : ∀ {path : List (Fin 32)}, loadedPath pool path → ∀ i ∈ path, ∃ d, pool[i] = .loaded d
  | [], _, _, hi => absurd hi List.not_mem_nil
  | [_], hp, _, hi => by
    rw [List.mem_singleton.1 hi]
    exact hp
  | _ :: _ :: _, ⟨⟨d, hd, _⟩, hp⟩, _, hi => by
    rcases List.mem_cons.1 hi with rfl | hi
    · exact ⟨d, hd⟩
    · exact loaded_of_mem_loadedPath hp _ hi

end

/-! ## CANCEL CHAIN (R120, R121) -/

section
variable {h : Byte} {s : State} {c : PendingChain}

theorem cancelChainBody_of_zero : cancelChainBody [0] s = .fail .outOfRange [] := rfl

theorem cancelChainBody_of_unknown (h0 : h ≠ 0) (hn : ∀ c ∈ s.chains.queue, c.handle ≠ h) :
    cancelChainBody [h] s = .fail .unknownHandle [] := by
  have hf : (s.chains.queue.find? fun c => c.handle == byteAt [h] 0) = none :=
    List.find?_eq_none.2 fun c hc => by simpa [byteAt] using hn c hc
  have hz : byteAt [h] 0 ≠ 0 := h0
  unfold cancelChainBody
  rw [if_neg (by simp), if_neg hz, hf]

/-- R115: a handle names one pending chain. -/
theorem eq_of_handle (hq : (s.chains.queue.map fun c => c.handle).Nodup) (hc : c ∈ s.chains.queue) {d : PendingChain}
    (hd : d ∈ s.chains.queue) (e : c.handle = d.handle) : c = d := List.inj_on_of_nodup_map hq hc hd e

theorem cancelChainBody_of_pending (hq : ChainQueueGood s) (hc : c ∈ s.chains.queue) :
    cancelChainBody [c.handle] s = doneReading (cancelPending c s) [BitVec.ofNat 8 c.length] := by
  have hf : (s.chains.queue.find? fun x => x.handle == byteAt [c.handle] 0) = some c := by
    cases hfind : s.chains.queue.find? fun x => x.handle == byteAt [c.handle] 0 with
    | none => exact absurd (List.find?_eq_none.1 hfind c hc) (by simp [byteAt])
    | some d =>
      have hd : d.handle = c.handle := by simpa [byteAt] using List.find?_some hfind
      rw [eq_of_handle hq.handles (List.mem_of_find?_eq_some hfind) hc hd]
  have hz : byteAt [c.handle] 0 ≠ 0 := hq.nonzero c hc
  unfold cancelChainBody
  rw [if_neg (by simp), if_neg hz, hf]

/-- R121: the record of the chain leaves the queue. -/
theorem erase_eq_filter (hq : ChainQueueGood s) (hc : c ∈ s.chains.queue) :
    s.chains.queue.erase c = s.chains.queue.filter fun x => x.handle != c.handle := by
  rw [hq.handles.of_map.erase_eq_filter]
  refine List.filter_congr fun x hx => ?_
  by_cases hxc : x = c
  · simp [hxc]
  · have hne : x.handle ≠ c.handle := fun e => hxc (eq_of_handle hq.handles hx hc e)
    rw [bne_iff_ne.2 hxc, bne_iff_ne.2 hne]

/-- R120: the outcome list with a record more. -/
theorem recordOutcome_eq (o : ChainOutcome) {outcomes : List ChainOutcome} (hl : outcomes.length ≤ 4) :
    recordOutcome o outcomes = outcomesWith o outcomes := by
  unfold recordOutcome outcomesWith
  by_cases h4 : outcomes.length = 4
  · rw [if_pos (by rw [h4]; decide), if_pos h4]
  · rw [if_neg (by show ¬ 4 ≤ outcomes.length; omega), if_neg h4]

/-- R121: exactly the slots that the chain holds return to Loaded. -/
theorem cancelled_slot (hc : chainHolds s.chains.pool c) (i : Fin 32) :
    (mapPoolSlots returnToLoaded (chainSlots s.chains.pool 32 c.head) s.chains.pool)[i] =
      match s.chains.pool[i] with
      | .held g d => if g = c.handle then .loaded d else .held g d
      | other => other := by
  obtain ⟨-, nodup, holds⟩ := hc
  rw [mapPoolSlots_get _ _ _ nodup]
  by_cases hi : i ∈ chainSlots s.chains.pool 32 c.head
  · obtain ⟨d, hd⟩ := (holds i).1 hi
    simp [hi, hd, returnToLoaded]
  · rw [if_neg hi]
    cases hx : s.chains.pool[i] with
    | free => rfl
    | loaded d => rfl
    | held g d =>
      have hg : g ≠ c.handle := fun e => hi ((holds i).2 ⟨d, by rw [hx, e]⟩)
      simp [hg]

end

/-! ## CHAIN STATUS (R122) -/

/-- R122: records in their places, and 0 in the places that are unused. -/
theorem padRecords_eq {width : Nat} : ∀ {n : Nat} {records : List (List Byte)}, records.length ≤ n →
    padRecords n width records = records.flatten ++ List.replicate (width * (n - records.length)) 0
  | 0, [], _ => by simp [padRecords]
  | n + 1, [], _ => by
    have ih := padRecords_eq (width := width) (n := n) (records := []) (Nat.zero_le n)
    simp only [padRecords, List.getD_nil] at ih
    simp only [padRecords, List.range_succ_eq_map, List.flatMap_cons, List.flatMap_map, List.getD_nil, ih, List.flatten_nil,
      List.nil_append, List.length_nil, Nat.sub_zero]
    rw [Nat.mul_succ, Nat.add_comm, List.replicate_add]
  | n + 1, r :: records, h => by
    have ih := padRecords_eq (width := width) (n := n) (records := records) (by simpa using h)
    simp only [padRecords] at ih
    simp only [padRecords, List.range_succ_eq_map, List.flatMap_cons, List.flatMap_map, List.getD_cons_zero, List.getD_cons_succ, ih,
      List.flatten_cons, List.append_assoc, List.length_cons, Nat.add_sub_add_right]

theorem flagBit_zero (b : Bool) : flagBit b 0 = if b then 1 else 0 := by
  cases b <;> rfl

/-- R122: the six bytes of a pending record. -/
theorem pendingChainBytes_eq :
    pendingChainBytes = fun c => [c.handle, BitVec.ofNat 8 c.head.val, BitVec.ofNat 8 c.length, BitVec.ofNat 8 (c.due.toNat % 256),
      BitVec.ofNat 8 (c.due.toNat / 256), if c.urgent then 1 else 0] := by
  funext c
  rw [pendingChainBytes, wordBytes_eq, flagBit_zero]
  rfl

theorem isFree_eq : PoolSlot.isFree = fun x => decide (x = .free) := by
  funext x
  cases x <;> simp [PoolSlot.isFree]

end Sys2Proof.Machine

namespace Sys2Proof.Proofs

open Sys2Proof.Machine

/-- Settles O9: by the bound, by the lock, and by what the run leaves at every offset. -/
theorem stageWritesOrIsLocked : Obligations.StageWritesOrIsLocked := by
  refine ⟨answersBadSize_of_body rfl fun p s hn => if_pos (by omega), fun tag lo hi bytes s hs hp h h1 h58 => ?_⟩
  intro start locked
  have hbody := stageBody_eq lo hi (beginExecution s) h1 h58
  have hlock : stagingLocked s.chains.pool start bytes.length = true ↔ locked := stagingLocked_iff_shared hp h1
  refine ⟨fun hout => exec_of_outOfRange rfl h (hbody.trans (if_pos hout)), fun hin hl => ?_, fun hin hl => ?_⟩
  · exact exec_of_fail .locked rfl h (hbody.trans ((if_neg (by omega)).trans (if_pos (hlock.2 hl))))
  · refine ⟨_, exec_of_done rfl h (hbody.trans ((if_neg (by omega)).trans (if_neg fun e => hl (hlock.1 e)))) rfl rfl,
      fun k hk => ?_, fun offset ho => ?_⟩
    · rw [beginExecution_staging, memRead_memWriteRun _ _ _ _ hs, if_pos (by omega), Nat.add_sub_cancel_left]
    · rw [beginExecution_staging, memRead_memWriteRun _ _ _ _ hs, if_neg (by omega)]

/-- Settles O12: the checks in their order, and the walk along the linked run up to the slot at which it fails. -/
theorem submitChainRefusals : Obligations.SubmitChainRefusals := by
  refine ⟨answersBadSize_of_body rfl fun p s hn => if_pos hn, fun tag h kind lo hi flags s hd => ?_⟩
  intro legal
  refine ⟨fun hn => exec_of_outOfRange rfl hd (submitChainBody_of_illegal hn), fun hl hp => ?_, fun hl hp hq => ?_,
    fun hl hp hq => ?_⟩
  · obtain ⟨due, hbody⟩ := submitChainBody_of_legal (flags := flags) (s := beginExecution s) hl.1 hl.2
    exact exec_of_fail .wrongState rfl hd (hbody.trans (submitSound_of_doze hp))
  · obtain ⟨due, hbody⟩ := submitChainBody_of_legal (flags := flags) (s := beginExecution s) hl.1 hl.2
    exact exec_of_fail .noRoom rfl hd (hbody.trans (submitSound_of_full (by simp [hp]) hq))
  · obtain ⟨due, hbody⟩ := submitChainBody_of_legal (flags := flags) (s := beginExecution s) hl.1 hl.2
    have refused : ∀ {head : Fin 32} {position : Nat} {reason : WalkFault} {slot : Fin 32}, h = BitVec.ofNat 8 head.val →
        walkChain s.chains.pool [] 31 head = .failed position reason slot →
        exec .submitChain s = .next (answeredOnly 0x2B tag 8
          [BitVec.ofNat 8 position, walkFaultByte reason, BitVec.ofNat 8 slot.val] s) := by
      intro head position reason slot hh hw
      have hhead : (⟨h.toNat, hl.1⟩ : Fin 32) = head :=
        Option.some.inj ((slotOf_of_lt hl.1).symm.trans ((congrArg slotOf hh).trans (slotOf_ofNat head)))
      rw [hhead] at hbody
      exact exec_of_fail .invalidChain rfl hd (hbody.trans (submitSound_of_failed (by simp [hp]) hq hw))
    refine ⟨fun head hh hn => ?_, fun path head n hh hhead hnodup hpath hnext => ?_⟩
    · rw [refused hh (walkChain_at_unloaded hn), ← hh]
      rfl
    · have hwalk := walkChain_next s.chains.pool n path [] 31 head hhead hnodup hpath hnext rfl
      rw [List.nil_append] at hwalk
      refine ⟨fun hlen => refused hh (hwalk.trans (if_pos hlen)), fun hlen hn => ?_, fun hlen hn => ?_⟩
      · exact refused hh (hwalk.trans ((if_neg (by omega)).trans (walkChain_at_unloaded hn)))
      · obtain ⟨d, hd⟩ := loaded_of_mem_loadedPath hpath n hn
        exact refused hh (hwalk.trans ((if_neg (by omega)).trans (walkChain_at_visited hd hn)))

/-- Settles O13: by the handle; the chain that has it holds its slots and no others. -/
theorem cancelChainReleasesSlots : Obligations.CancelChainReleasesSlots := by
  refine ⟨answersBadSize_of_body rfl fun p s hn => if_pos hn, fun tag h s hd => ⟨fun h0 => ?_, fun h0 hn => ?_, ?_⟩⟩
  · subst h0
    exact exec_of_outOfRange rfl hd cancelChainBody_of_zero
  · exact exec_of_fail .unknownHandle rfl hd (cancelChainBody_of_unknown h0 hn)
  · rintro c hc ⟨hq, hholds, -⟩ rfl
    refine ⟨_, cancelled_slot (hholds c hc), ?_⟩
    rw [← erase_eq_filter hq hc, ← recordOutcome_eq _ hq.outcomes]
    exact exec_of_done rfl hd (cancelChainBody_of_pending (s := beginExecution s) ⟨hq.pending, hq.outcomes, hq.handles, hq.nonzero,
      hq.urgent⟩ hc) rfl rfl

/-- Settles O14: each part of the 44 bytes in its place. -/
theorem chainStatusReports : Obligations.ChainStatusReports := by
  refine ⟨answersBadSize_of_body rfl fun p s hn => if_pos hn, fun tag s h hq ho => ?_⟩
  refine ⟨chainStatusBytes s, exec_of_reading rfl h rfl, chainStatusBytes_length s, ?_⟩
  have pending := padRecords_eq (width := 6) (n := 4) (records := s.chains.queue.map pendingChainBytes) (by simpa using hq)
  have recent := padRecords_eq (width := 3) (n := 4) (records := s.chains.outcomes.map chainOutcomeBytes) (by simpa using ho)
  rw [← List.flatMap_def, List.length_map, Nat.mul_sub] at pending recent
  rw [chainStatusBytes, pending, recent, wordBytes_eq, pendingChainBytes_eq]
  simp only [slotCount, isFree_eq, List.append_assoc]
  rfl

end Sys2Proof.Proofs
end

section
/-! PROOFS. The statements about the postings that reset the part or leave Run, the entry to Sleep and the return to Run (R33 to R35, R173 to R183). -/

namespace Sys2Proof.Machine

section
variable {s : State}

/-! ## The posting -/

theorem postingStep_of_room {a : Answer} (ha : s.requests.engine = .replying a) (hroom : s.link.ring.length + a.bytes.length ≤ 192) :
    postingStep s = closeStep (postEffect a.effect (postBytes a s)) := by
  rw [postingStep, postable_of_replying ha, if_pos hroom]

/-- R33: the whole effect of the posting itself. -/
theorem postBytes_eq (a : Answer) {front : Slot} {rest : List Slot} (hs : s.requests.slots = front :: rest) :
    postBytes a s = { s with
      link := { s.link with ring := s.link.ring ++ a.bytes }
      requests := { slots := rest, engine := .idle } } := by
  rw [postBytes, hs]
  rfl

/-- R32: with no Rejected slot at all no REJECT is built. -/
theorem withReject_of_none_rejected (h : ∀ slot ∈ s.requests.slots, ∀ reason, slot.stage ≠ .waitingRejected reason) :
    withReject s = s := by
  refine withReject_eq_self s ?_
  have noRejection : (frontRejection s).isSome = false := Bool.eq_false_iff.2 fun hr => by
    obtain ⟨first, rest, reason, hnil, -⟩ := (frontRejection_isSome_iff (s := s) (front := []) rfl h).1 hr
    cases hnil
  rw [rejectionDue, noRejection, Bool.and_false]

/-- R35: of slots that are Filling or Waiting, those that the warm reset keeps are the Filling ones. -/
theorem filter_not_waiting {slots : List Slot}
    (h : ∀ slot ∈ slots, slot.stage = .filling ∨ slot.stage = .waitingGood ∨ ∃ reason, slot.stage = .waitingRejected reason) :
    (slots.filter fun slot => !slot.stage.waiting) = slots.filter fun slot => slot.stage == .filling := by
  refine List.filter_congr fun slot hslot => ?_
  rcases h slot hslot with e | e | ⟨reason, e⟩ <;> rw [e] <;> rfl

/-- R35: the warm reset leaves no Rejected slot, so the end of its step has nothing to do. -/
theorem closeStep_warmReset (hp : s.power.state = .run ∨ s.power.state = .doze) : closeStep (warmReset s) = warmReset s := by
  refine (closeStep_of_runs (s := warmReset s) hp).trans (withReject_of_none_rejected fun slot hslot reason hr => ?_)
  have kept := (List.mem_filter.1 hslot).2
  rw [hr] at kept
  cases kept

/-- R177: a ring that holds a byte keeps Sleep away. -/
theorem sleepReady_of_ring (h : s.link.ring ≠ []) : sleepReady s = false :=
  Bool.eq_false_iff.2 fun hr => h ((sleepReady_iff s).1 hr).2.1

/-! ## Sleep and the return to Run -/

theorem exec_sleepEntry : exec .sleepEntry s = .next (sleptIfQuiet s) := congrArg _ (enterSleepIfReady_eq s)

theorem exec_wakeStep : exec .wakeStep s = .next (if wakeStepDue s then closeStep (returnToRun (resumeEngine s)) else s) := rfl

theorem awaitLength_iff (a : Assembler) : assemblerCode a = 0 ↔ ∃ preMark, a = .awaitLength preMark := by
  cases a <;> simp [assemblerCode]

theorem wakeStepDue_iff : wakeStepDue s = true ↔ (s.power.state = .doze ∨ s.power.state = .sleep) ∧ s.power.wakeDue = true := by
  rw [wakeStepDue, Bool.and_eq_true, wakeScanning_iff]

/-- R34: the engine is all that its resumption changes. -/
theorem resumeEngine_eq (s : State) :
    resumeEngine s = { s with requests :=
      { s.requests with engine := if s.requests.engine = .suspended then .idle else s.requests.engine } } := by
  unfold resumeEngine
  split <;> rfl

theorem returnNotice_of_wakeScanning (h : s.power.state = .doze ∨ s.power.state = .sleep) : returnNotice s.power.state = .wake := by
  rcases h with e | e <;> rw [e] <;> rfl

end

end Sys2Proof.Machine

namespace Sys2Proof.Proofs

open Sys2Proof.Machine

/-- Settles O34: the posting of the bytes, then the warm reset; the slots that it keeps are Filling, so no REJECT is built. -/
theorem postingOfRestartResetsWarm : Obligations.PostingOfRestartResetsWarm := by
  intro a front rest s ha hs hroom he hp hrest
  refine ⟨Vector.ofFn fun i => returnToLoaded s.chains.pool[i], fun i => ?_, ?_⟩
  · refine (Vector.getElem_ofFn i.isLt).trans ?_
    show returnToLoaded s.chains.pool[i] = _
    cases s.chains.pool[i] <;> rfl
  · rw [exec_posting, postingStep_of_room ha hroom, he, postEffect, closeStep_warmReset (s := postBytes a s) hp, postBytes_eq a hs,
      ← filter_not_waiting hrest]
    rfl

/-- Settles O35: the entry to Doze, and the suspension before Sleep, which the bytes just posted keep from being entered. -/
theorem postingLeavesRun : Obligations.PostingLeavesRun := by
  intro a front rest s ha hs hroom hbytes hp posted
  refine ⟨fun he => ?_, fun he => ?_⟩
  · rw [exec_posting, postingStep_of_room ha hroom, he, postEffect, postBytes_eq a hs, enterLowPower_eq, closeStep_of_runs (.inr rfl)]
  · rw [exec_posting, postingStep_of_room ha hroom, he, postEffect, postBytes_eq a hs]
    refine congrArg _ (closeStep_of_settled _ ⟨rejectionDue_of_busy nofun, sleepReady_of_ring ?_⟩)
    exact List.append_ne_nil_of_right_ne_nil _ hbytes

/-- Settles O36: the entry to Sleep by its three conditions, and the two returns to Run. -/
theorem sleepIsEnteredAndLeft : Obligations.SleepIsEnteredAndLeft := by
  intro s
  refine ⟨fun hp hr ha hh => ?_, fun hn => ?_, fun hp hw => ?_, fun hn => ?_, fun hp hr => ?_, fun hn => ?_⟩
  · rw [exec_sleepEntry, sleptIfQuiet, if_pos ⟨hp, hr, (awaitLength_iff _).2 ha, hh⟩]
  · rw [exec_sleepEntry, sleptIfQuiet, if_neg]
    rintro ⟨hp, hr, ha, hh⟩
    obtain ⟨preMark, ha⟩ := (awaitLength_iff _).1 ha
    exact hn.elim (absurd hp) fun hn => hn.elim (absurd hr) fun hn => hn.elim (fun hn => hn preMark ha) (absurd hh)
  · rw [exec_wakeStep, if_pos (wakeStepDue_iff.2 ⟨hp, hw⟩), returnToRun_eq, resumeEngine_eq, returnNotice_of_wakeScanning hp,
      closeStep_of_runs (.inl rfl)]
    rfl
  · rw [exec_wakeStep, if_neg fun hd => ?_]
    obtain ⟨hp, hw⟩ := wakeStepDue_iff.1 hd
    rcases hn with hn | ⟨notDoze, notSleep⟩
    · exact absurd hw (by simp [hn])
    · exact hp.elim notDoze notSleep
  · have due : startingEnds s = true := by simp [startingEnds, hp, hr]
    rw [exec_endOfStarting, if_pos due, returnToRun_eq, hp]
    rfl
  · have notDue : startingEnds s = false := by simp [startingEnds, hn]
    rw [exec_endOfStarting, notDue]
    rfl

end Sys2Proof.Proofs
end

section
/-! PROOFS. The statement about SET KEY (R36, R127, R138, R140, R141). -/

namespace Sys2Proof.Machine

section
variable {s : State} (k : Fin 64) (r : KeyRecord)

theorem keyOf_of_ge {b : Byte} (h : 64 ≤ b.toNat) : keyOf b = none := dif_neg (Nat.not_lt.2 h)

theorem keyOf_ofNat : keyOf (BitVec.ofNat 8 k.val) = some k := by
  have hk : (BitVec.ofNat 8 k.val).toNat = k.val := by
    rw [BitVec.toNat_ofNat]
    omega
  unfold keyOf
  rw [dif_pos (by omega)]
  exact congrArg some (Fin.ext hk)

theorem setKeyBody_of_key (flags : Byte) (s : State) :
    setKeyBody [BitVec.ofNat 8 k.val, flags] s = doneWith (setKey k (keyRecordOf flags) s) := by
  have hk : keyOf (byteAt [BitVec.ofNat 8 k.val, flags] 0) = some k := keyOf_ofNat k
  unfold setKeyBody
  rw [if_neg (by simp), hk]
  rfl

theorem setKeyBody_of_no_key {key : Byte} (h : 64 ≤ key.toNat) (flags : Byte) (s : State) :
    setKeyBody [key, flags] s = .fail .outOfRange [] := by
  have hk : keyOf (byteAt [key, flags] 0) = none := keyOf_of_ge h
  unfold setKeyBody
  rw [if_neg (by simp), hk]

/-- R140, R141: the owner is no longer this key, and its repeat has stopped. -/
theorem clearOwnerIf_eq (s : State) :
    clearOwnerIf k s = { s with
      scanner := { s.scanner with
        owner := if s.scanner.owner = some k then none else s.scanner.owner
        repeatTimer := if s.scanner.owner = some k then none else s.scanner.repeatTimer } } := by
  unfold clearOwnerIf
  split <;> rfl

/-- R141: the repeat timer after the record of its owner was replaced. -/
theorem stopRepeatIf_eq (s : State) :
    stopRepeatIf k r s = { s with
      scanner := { s.scanner with
        repeatTimer := if s.scanner.owner = some k ∧ r.repeats = false then none else s.scanner.repeatTimer } } := by
  unfold stopRepeatIf
  split <;> rfl

theorem stopRepeatIf_of_not_owner (h : s.scanner.owner ≠ some k) : stopRepeatIf k r s = s := by
  rw [stopRepeatIf, if_neg fun hk => h hk.1]

/-- R138: below eight reported keys the episode ends. -/
theorem endRollover_of_below (h : downCount s < 8) :
    endRollover s = { s with scanner := { s.scanner with rollover := false } } := if_pos h

/-- R138: the release of a reported key leaves at most seven. -/
theorem downCount_released (hr : s.scanner.states[k].reported = true) (hd : downCount s ≤ 8) : downCount (setKeyState k .idle s) < 8 := by
  have h := downCount_setKeyState k .idle s
  rw [if_pos hr, if_neg (by simp [KeyState.reported])] at h
  omega

/-- R127: a reported key that is disabled. -/
theorem disableKey_of_reported (hr : s.scanner.states[k].reported = true) (hd : downCount s ≤ 8) :
    disableKey k s = { s with
      keys := { s.keys with
        events := s.keys.events ++ [{ kind := .forcedRelease, key := BitVec.ofNat 8 k.val, time := s.time.ticks }] }
      scanner := { s.scanner with
        states := s.scanner.states.set k .idle
        owner := if s.scanner.owner = some k then none else s.scanner.owner
        repeatTimer := if s.scanner.owner = some k then none else s.scanner.repeatTimer
        rollover := false } } := by
  have below : downCount (clearOwnerIf k (releaseReported .forcedRelease k s.time.ticks s)) < 8 := by
    rw [clearOwnerIf_eq]
    exact downCount_released k hr hd
  rw [disableKey, if_pos hr, endRollover_of_below below, clearOwnerIf_eq]
  rfl

theorem disableKey_of_unreported (hr : s.scanner.states[k].reported = false) : disableKey k s = setKeyState k .idle s := by
  rw [disableKey, hr]
  rfl

/-- R127: the key's record is replaced and nothing more. -/
theorem setKey_of_enabled_kept (h : s.scanner.table[k].enabled = r.enabled) : setKey k r s = stopRepeatIf k r (setKeyRecord k r s) := by
  rw [setKey, h]
  cases r.enabled <;> rfl

/-- R127: an enabled key is disabled, or a disabled key is enabled. -/
theorem setKey_of_enabled_changed (h : s.scanner.table[k].enabled ≠ r.enabled)
    (hr : r.enabled = false → s.scanner.states[k].reported = false) :
    setKey k r s = stopRepeatIf k r (setKeyState k .idle (setKeyRecord k r s)) := by
  rw [setKey]
  cases ha : r.enabled with
  | false =>
    have hb : s.scanner.table[k].enabled = true := Bool.eq_true_of_not_eq_false fun e => h (e.trans ha.symm)
    have unreported : (setKeyRecord k r s).scanner.states[k].reported = false := hr ha
    rw [hb, changeEnabled, disableKey_of_unreported k unreported]
  | true =>
    have hb : s.scanner.table[k].enabled = false := Bool.eq_false_of_not_eq_true fun e => h (e.trans ha.symm)
    rw [hb]
    rfl

/-- R127: a reported key is disabled; the owner is then no longer this key, so that no repeat is left to stop. -/
theorem setKey_of_reported_disabled (hb : s.scanner.table[k].enabled = true) (ha : r.enabled = false)
    (hr : s.scanner.states[k].reported = true) (hd : downCount s ≤ 8) : setKey k r s = disableKey k (setKeyRecord k r s) := by
  rw [setKey, hb, ha, changeEnabled]
  refine stopRepeatIf_of_not_owner k r ?_
  rw [disableKey_of_reported k (s := setKeyRecord k r s) hr hd]
  show ¬ (if s.scanner.owner = some k then none else s.scanner.owner) = some k
  split
  · nofun
  · assumption

end

end Sys2Proof.Machine

namespace Sys2Proof.Proofs

open Sys2Proof.Machine

/-- Settles O16: by the Enabled flag before and after, and by the state of the key. -/
theorem setKeyActsOnTheKey : Obligations.SetKeyActsOnTheKey := by
  refine ⟨answersBadSize_of_body rfl fun p s hn => if_pos hn, fun tag key flags s hk h => ?_, fun tag flags k s hd h => ?_⟩
  · exact exec_of_outOfRange rfl h (setKeyBody_of_no_key hk flags _)
  · intro r table stopped kept
    have hbody := setKeyBody_of_key k flags (beginExecution s)
    split
    next hc =>
      obtain ⟨hb, ha, hr⟩ := hc
      have hdisabled : setKey k (keyRecordOf flags) (beginExecution s) = _ := setKey_of_reported_disabled k r hb ha hr hd
      rw [hdisabled, disableKey_of_reported k (s := setKeyRecord k r (beginExecution s)) hr hd] at hbody
      exact exec_of_done rfl h hbody rfl rfl
    next hc =>
      split
      next he =>
        have hkept : setKey k (keyRecordOf flags) (beginExecution s) = _ := setKey_of_enabled_kept k r he
        rw [hkept, stopRepeatIf_eq] at hbody
        exact exec_of_done rfl h hbody rfl rfl
      next he =>
        have hchanged : setKey k (keyRecordOf flags) (beginExecution s) = _ :=
          setKey_of_enabled_changed k r he fun ha => Bool.eq_false_iff.2 fun hr =>
            hc ⟨Bool.eq_true_of_not_eq_false fun hb => he (hb.trans ha.symm), ha, hr⟩
        rw [hchanged, stopRepeatIf_eq] at hbody
        exact exec_of_done rfl h hbody rfl rfl

end Sys2Proof.Proofs
end

section
/-! PROOFS. The statement about the descriptors (R36, R100 to R111): each action is read from its parameter bytes exactly where they are in their
ranges, and gives those bytes back. -/

namespace Sys2Proof.Machine

/-! ## Fields that give their byte back (R38, R46, section 0.6) -/

theorem wordBytes_append (hi lo : Byte) : wordBytes (hi ++ lo) = [lo, hi] := by
  have hlo : lowByte (hi ++ lo) = lo := by
    apply BitVec.eq_of_toNat_eq
    rw [lowByte, BitVec.extractLsb'_toNat, Nat.shiftRight_zero, append_toNat]
    omega
  have hhi : highByte (hi ++ lo) = hi := by
    apply BitVec.eq_of_toNat_eq
    rw [highByte, BitVec.extractLsb'_toNat, Nat.shiftRight_eq_div_pow, append_toNat]
    omega
  rw [wordBytes, hlo, hhi]

theorem toNat_le_one_iff (b : Byte) : b.toNat ≤ 1 ↔ b = 0 ∨ b = 1 := by
  rw [BitVec.toNat_eq, BitVec.toNat_eq]
  simp only [BitVec.ofNat_eq_ofNat, BitVec.toNat_ofNat]
  omega

/-- R49: a code 0 or 1 is the code of a mode. -/
theorem attributeModeOf_of_le {b : Byte} (h : b.toNat ≤ 1) : ∃ m, attributeModeOf b = some m ∧ attributeModeByte m = b := by
  rcases (toNat_le_one_iff b).1 h with rfl | rfl
  · exact ⟨.keep, rfl, rfl⟩
  · exact ⟨.apply, rfl, rfl⟩

theorem attributeModeOf_of_gt {b : Byte} (h : ¬ b.toNat ≤ 1) : attributeModeOf b = none := by
  rw [attributeModeOf_eq, if_neg fun hb => h ((toNat_le_one_iff b).2 hb)]

theorem tableOf_of_le {b : Byte} (h : b.toNat ≤ 1) : ∃ t, tableOf b = some t ∧ tableByte t = b := by
  rcases (toNat_le_one_iff b).1 h with rfl | rfl
  · exact ⟨.primary, rfl, rfl⟩
  · exact ⟨.fallback, rfl, rfl⟩

theorem tableOf_of_gt {b : Byte} (h : ¬ b.toNat ≤ 1) : tableOf b = none := by
  have hb := not_or.1 fun hb => h ((toNat_le_one_iff b).2 hb)
  rw [tableOf, if_neg hb.1, if_neg hb.2]

theorem viewIndexOf_of_le {b : Byte} (h : b.toNat ≤ 3) : ∃ i, viewIndexOf b = some i ∧ BitVec.ofNat 8 i.val = b :=
  ⟨⟨b.toNat, Nat.lt_succ_of_le h⟩, dif_pos (Nat.lt_succ_of_le h), BitVec.ofNat_toNat 8 b⟩

theorem viewIndexOf_of_gt {b : Byte} (h : ¬ b.toNat ≤ 3) : viewIndexOf b = none := dif_neg fun hb => h (Nat.le_of_lt_succ hb)

/-- R38: a flag byte is its bit 0. -/
theorem flagBit_getLsbD (b : Byte) : flagBit (b.getLsbD 0) 0 = b &&& 0x01 := by
  revert b; decide

theorem flagBit_of_le {b : Byte} (h : b.toNat ≤ 1) : flagBit (b == 1) 0 = b := by
  rcases (toNat_le_one_iff b).1 h with rfl | rfl <;> rfl

/-- R102: Next, a slot number or End. -/
theorem nextOf_of_legal {b : Byte} (h : b.toNat < 32 ∨ b = 0xFF) : ∃ n, nextOf b = some n ∧ nextByte n = b := by
  by_cases hb : b = 0xFF
  · exact ⟨none, if_pos hb, hb.symm⟩
  · have hlt := h.resolve_right hb
    refine ⟨some ⟨b.toNat, hlt⟩, ?_, BitVec.ofNat_toNat 8 b⟩
    rw [nextOf, if_neg hb, slotOf_of_lt hlt]
    rfl

theorem nextOf_of_illegal {b : Byte} (h : ¬ (b.toNat < 32 ∨ b = 0xFF)) : nextOf b = none := by
  have hb := not_or.1 h
  rw [nextOf, if_neg hb.2, slotOf_of_ge hb.1]
  rfl

/-- R105: the rectangle, where it passes the checks. -/
theorem rectangleAt_of_fits {q : List Byte} {i : Nat}
    (h : rectangleFits (byteAt q i) (byteAt q (i + 1)) (byteAt q (i + 2)) (byteAt q (i + 3))) :
    rectangleAt q i =
      some { column := byteAt q i, row := byteAt q (i + 1), width := byteAt q (i + 2), height := byteAt q (i + 3) } := by
  obtain ⟨width, height, columns, rows⟩ := h
  refine if_pos ?_
  simp only [Bool.and_eq_true, inRange_iff, decide_eq_true_eq]
  omega

theorem rectangleAt_of_not_fits {q : List Byte} {i : Nat}
    (h : ¬ rectangleFits (byteAt q i) (byteAt q (i + 1)) (byteAt q (i + 2)) (byteAt q (i + 3))) : rectangleAt q i = none := by
  refine if_neg fun hc => h ?_
  simp only [Bool.and_eq_true, inRange_iff, decide_eq_true_eq] at hc
  obtain ⟨⟨⟨⟨-, width⟩, height⟩, columns⟩, rows⟩ := hc
  exact ⟨width.1, height.1, columns, rows⟩

/-! ## The six actions (R106 to R111) -/

/-- R102, R104: the parameter bytes are read as an action exactly where `ok` holds; the action is legal, has this code, and gives `stored` back. -/
structure ReadsAction (read : Option Action) (ok : Prop) (code : Byte) (stored : List Byte) : Prop where
  accepts : ok → ∃ a, read = some a ∧ a.legal ∧ actionCode a = code ∧ actionParameters a = stored
  refuses : ¬ ok → read = none

section
variable (q : List Byte)

theorem wordAt_toNat (i : Nat) : (wordAt q i).toNat = (byteAt q (i + 1)).toNat * 256 + (byteAt q i).toNat := append_toNat _ _

theorem copyOf_reads : ReadsAction (copyOf q) (loadable 1 q) 1 (storedParameters 1 q) := by
  constructor
  · rintro ⟨fits, hm, inside⟩
    obtain ⟨m, hmode, hbyte⟩ := attributeModeOf_of_le (b := byteAt q 6) hm
    have inside : (wordAt q 0).toNat + (byteAt q 4).toNat * (byteAt q 5).toNat ≤ 1024 := by
      rw [wordAt_toNat]
      exact inside
    have area : 1 ≤ (byteAt q 4).toNat * (byteAt q 5).toNat := Nat.mul_pos fits.1 fits.2.1
    have hin : (wordAt q 0).toNat < Config.stagingBytes := by
      show _ < 1024
      omega
    refine ⟨.copy (wordAt q 0) ⟨byteAt q 2, byteAt q 3, byteAt q 4, byteAt q 5⟩ m (attributesOf (byteAt q 7)), ?_, ⟨fits, inside⟩,
      rfl, ?_⟩
    · rw [copyOf, if_pos hin, rectangleAt_of_fits (i := 2) fits, hmode]
      exact if_pos inside
    · simp only [actionParameters, wordAt, wordBytes_append, rectangleBytes, hbyte, attributesByte_attributesOf]
      rfl
  · intro hn
    unfold copyOf
    by_cases hin : (wordAt q 0).toNat < Config.stagingBytes
    · rw [if_pos hin]
      by_cases fits : rectangleFits (byteAt q 2) (byteAt q 3) (byteAt q 4) (byteAt q 5)
      · rw [rectangleAt_of_fits (i := 2) fits]
        by_cases hm : (byteAt q 6).toNat ≤ 1
        · obtain ⟨m, hmode, -⟩ := attributeModeOf_of_le hm
          rw [hmode]
          refine if_neg fun inside => hn ⟨fits, hm, ?_⟩
          rw [wordAt_toNat] at inside
          exact inside
        · rw [attributeModeOf_of_gt hm]
      · rw [rectangleAt_of_not_fits (i := 2) fits]
    · rw [if_neg hin]

theorem fillOf_reads : ReadsAction (fillOf q) (loadable 2 q) 2 (storedParameters 2 q) := by
  constructor
  · rintro ⟨fits, hm⟩
    obtain ⟨m, hmode, hbyte⟩ := attributeModeOf_of_le (b := byteAt q 5) hm
    refine ⟨.fill ⟨byteAt q 0, byteAt q 1, byteAt q 2, byteAt q 3⟩ (byteAt q 4) m (attributesOf (byteAt q 6)), ?_, fits, rfl, ?_⟩
    · rw [fillOf, rectangleAt_of_fits (i := 0) fits, hmode]
    · simp only [actionParameters, rectangleBytes, hbyte, attributesByte_attributesOf]
      rfl
  · intro hn
    unfold fillOf
    by_cases fits : rectangleFits (byteAt q 0) (byteAt q 1) (byteAt q 2) (byteAt q 3)
    · rw [rectangleAt_of_fits (i := 0) fits, attributeModeOf_of_gt (b := byteAt q 5) fun hm => hn ⟨fits, hm⟩]
    · rw [rectangleAt_of_not_fits (i := 0) fits]

theorem attributeOf_reads : ReadsAction (attributeOf q) (loadable 3 q) 3 (storedParameters 3 q) := by
  constructor
  · intro fits
    refine ⟨.attributes ⟨byteAt q 0, byteAt q 1, byteAt q 2, byteAt q 3⟩ (attributesOf (byteAt q 4)) (attributesOf (byteAt q 5)), ?_,
      fits, rfl, ?_⟩
    · rw [attributeOf, rectangleAt_of_fits (i := 0) fits]
      rfl
    · simp only [actionParameters, rectangleBytes, attributesByte_attributesOf]
      rfl
  · intro hn
    rw [attributeOf, rectangleAt_of_not_fits (i := 0) hn]
    rfl

theorem originOf_reads : ReadsAction (originOf q) (loadable 4 q) 4 (storedParameters 4 q) := by
  constructor
  · rintro ⟨h0, h1, h3⟩
    obtain ⟨t, htable, htbyte⟩ := tableOf_of_le (b := byteAt q 0) h0
    obtain ⟨i, hindex, hibyte⟩ := viewIndexOf_of_le (b := byteAt q 1) h1
    refine ⟨.origin t i (byteAt q 2) (byteAt q 3), ?_, h3, rfl, ?_⟩
    · rw [originOf, htable, hindex]
      exact if_pos ((inRange_iff 0 127 _).2 ⟨Nat.zero_le _, h3⟩)
    · simp only [actionParameters, htbyte, hibyte]
      rfl
  · intro hn
    unfold originOf
    by_cases h0 : (byteAt q 0).toNat ≤ 1
    · obtain ⟨t, htable, -⟩ := tableOf_of_le h0
      rw [htable]
      by_cases h1 : (byteAt q 1).toNat ≤ 3
      · obtain ⟨i, hindex, -⟩ := viewIndexOf_of_le h1
        rw [hindex]
        exact if_neg fun h3 => hn ⟨h0, h1, ((inRange_iff 0 127 _).1 h3).2⟩
      · rw [viewIndexOf_of_gt h1]
    · rw [tableOf_of_gt h0]

theorem visibilityOf_reads : ReadsAction (visibilityOf q) (loadable 5 q) 5 (storedParameters 5 q) := by
  constructor
  · rintro ⟨h0, h1, h2⟩
    obtain ⟨t, htable, htbyte⟩ := tableOf_of_le (b := byteAt q 0) h0
    obtain ⟨i, hindex, hibyte⟩ := viewIndexOf_of_le (b := byteAt q 1) h1
    refine ⟨.visibility t i (byteAt q 2 == 1), ?_, trivial, rfl, ?_⟩
    · rw [visibilityOf, htable, hindex]
      exact if_pos ((isBit_iff _).2 ((toNat_le_one_iff _).1 h2))
    · simp only [actionParameters, htbyte, hibyte, flagBit_of_le (b := byteAt q 2) h2]
      rfl
  · intro hn
    unfold visibilityOf
    by_cases h0 : (byteAt q 0).toNat ≤ 1
    · obtain ⟨t, htable, -⟩ := tableOf_of_le h0
      rw [htable]
      by_cases h1 : (byteAt q 1).toNat ≤ 3
      · obtain ⟨i, hindex, -⟩ := viewIndexOf_of_le h1
        rw [hindex]
        exact if_neg fun h2 => hn ⟨h0, h1, (toNat_le_one_iff _).2 ((isBit_iff _).1 h2)⟩
      · rw [viewIndexOf_of_gt h1]
    · rw [tableOf_of_gt h0]

/-- R111: a MARK is taken with any byte. -/
theorem mark_reads : ReadsAction (some (.mark (byteAt q 0))) (loadable 6 q) 6 (storedParameters 6 q) where
  accepts := fun _ => ⟨_, rfl, trivial, rfl, rfl⟩
  refuses := fun h => absurd trivial h

/-- R102: no action has another code than 1 to 6. -/
theorem not_loadable {code : Byte} (h1 : code ≠ 1) (h2 : code ≠ 2) (h3 : code ≠ 3) (h4 : code ≠ 4) (h5 : code ≠ 5) (h6 : code ≠ 6) :
    ¬ loadable code q := by
  unfold loadable
  split
  next e => exact absurd (BitVec.eq_of_toNat_eq e) h1
  next e => exact absurd (BitVec.eq_of_toNat_eq e) h2
  next e => exact absurd (BitVec.eq_of_toNat_eq e) h3
  next e => exact absurd (BitVec.eq_of_toNat_eq e) h4
  next e => exact absurd (BitVec.eq_of_toNat_eq e) h5
  next e => exact absurd (BitVec.eq_of_toNat_eq e) h6
  next => exact id

/-- R102: the action code chooses what the parameter bytes are read as. -/
theorem actionOf_reads (code : Byte) : ReadsAction (actionOf code q) (loadable code q) code (storedParameters code q) := by
  by_cases h1 : code = 1
  · subst h1
    exact copyOf_reads q
  by_cases h2 : code = 2
  · subst h2
    exact fillOf_reads q
  by_cases h3 : code = 3
  · subst h3
    exact attributeOf_reads q
  by_cases h4 : code = 4
  · subst h4
    exact originOf_reads q
  by_cases h5 : code = 5
  · subst h5
    exact visibilityOf_reads q
  by_cases h6 : code = 6
  · subst h6
    exact mark_reads q
  refine ⟨fun h => absurd h (not_loadable q h1 h2 h3 h4 h5 h6), fun _ => ?_⟩
  rw [actionOf, if_neg h1, if_neg h2, if_neg h3, if_neg h4, if_neg h5, if_neg h6]

end

/-! ## The descriptor of a payload (R102, R104) -/

section
variable {slot code next flags : Byte} {q : List Byte}

theorem descriptorOf_of_legal (ha : loadable code q) (hn : next.toNat < 32 ∨ next = 0xFF) :
    ∃ d : Descriptor, descriptorOf (slot :: code :: next :: flags :: q) = some d ∧ d.action.legal ∧
      descriptorBytes d = [code, next, flags &&& 0x01] ++ storedParameters code q := by
  obtain ⟨a, haction, legal, hcode, hparams⟩ := (actionOf_reads q code).accepts ha
  obtain ⟨n, hnext, hbyte⟩ := nextOf_of_legal hn
  have h1 : actionOf (byteAt (slot :: code :: next :: flags :: q) 1) ((slot :: code :: next :: flags :: q).drop 4) = some a := haction
  have h2 : nextOf (byteAt (slot :: code :: next :: flags :: q) 2) = some n := hnext
  refine ⟨{ action := a, next := n, release := flags.getLsbD 0 }, ?_, legal, ?_⟩
  · unfold descriptorOf
    rw [h1, h2]
    rfl
  · simp only [descriptorBytes, hcode, hbyte, hparams, flagBit_getLsbD]

theorem descriptorOf_of_illegal (h : ¬ (loadable code q ∧ (next.toNat < 32 ∨ next = 0xFF))) :
    descriptorOf (slot :: code :: next :: flags :: q) = none := by
  unfold descriptorOf
  by_cases ha : loadable code q
  · have h2 : nextOf (byteAt (slot :: code :: next :: flags :: q) 2) = none := nextOf_of_illegal fun hn => h ⟨ha, hn⟩
    rw [h2]
  · have h1 : actionOf (byteAt (slot :: code :: next :: flags :: q) 1) ((slot :: code :: next :: flags :: q).drop 4) = none :=
      (actionOf_reads q code).refuses ha
    rw [h1]
    cases nextOf (byteAt (slot :: code :: next :: flags :: q) 2) <;> rfl

end

/-! ## The bodies of the descriptor requests (R102 to R104) -/

section
variable {payload : List Byte} {s : State}

theorem loadDescriptorBody_of_named {i : Fin 32} {d : Descriptor} (hl : payload.length = 12) (hi : slotOf (byteAt payload 0) = some i)
    (hd : descriptorOf payload = some d) :
    loadDescriptorBody payload s = if s.chains.pool[i].isHeld then .fail .busy [] else doneWith (setPoolSlot i (.loaded d) s) := by
  unfold loadDescriptorBody
  rw [if_neg (not_not.2 hl), hi, hd]

theorem loadDescriptorBody_of_illegal (hl : payload.length = 12)
    (h : slotOf (byteAt payload 0) = none ∨ descriptorOf payload = none) : loadDescriptorBody payload s = .fail .outOfRange [] := by
  unfold loadDescriptorBody
  rw [if_neg (not_not.2 hl)]
  rcases h with h | h
  · rw [h]
  · rw [h]
    cases slotOf (byteAt payload 0) <;> rfl

theorem freeDescriptorBody_of_slot (i : Fin 32) :
    freeDescriptorBody [BitVec.ofNat 8 i.val] s =
      if s.chains.pool[i].isHeld then .fail .busy [] else doneWith (setPoolSlot i .free s) := by
  have hi : slotOf (byteAt [BitVec.ofNat 8 i.val] 0) = some i := slotOf_ofNat i
  unfold freeDescriptorBody
  rw [if_neg (by simp), hi]

theorem freeDescriptorBody_of_no_slot {b : Byte} (h : slotOf b = none) : freeDescriptorBody [b] s = .fail .outOfRange [] := by
  have hb : slotOf (byteAt [b] 0) = none := h
  unfold freeDescriptorBody
  rw [if_neg (by simp), hb]

theorem readDescriptorBody_of_slot (i : Fin 32) :
    readDescriptorBody [BitVec.ofNat 8 i.val] s = doneReading s (poolSlotBytes s.chains.pool[i]) := by
  have hi : slotOf (byteAt [BitVec.ofNat 8 i.val] 0) = some i := slotOf_ofNat i
  unfold readDescriptorBody
  rw [if_neg (by simp), hi]

theorem readDescriptorBody_of_no_slot {b : Byte} (h : slotOf b = none) : readDescriptorBody [b] s = .fail .outOfRange [] := by
  have hb : slotOf (byteAt [b] 0) = none := h
  unfold readDescriptorBody
  rw [if_neg (by simp), hb]

end

end Sys2Proof.Machine

namespace Sys2Proof.Proofs

open Sys2Proof.Machine

/-- Settles O10: by the slot number, by the action that the parameter bytes are read as, and by the state of the slot. -/
theorem descriptorRequestsAnswer : Obligations.DescriptorRequestsAnswer := by
  refine ⟨⟨answersBadSize_of_body rfl fun p s hn => if_pos hn, answersBadSize_of_body rfl fun p s hn => if_pos hn,
    answersBadSize_of_body rfl fun p s hn => if_pos hn⟩, fun tag s => ⟨fun i code next flags q hq h => ?_, fun i h => ?_,
    fun i h => ?_, fun b rest hb => ?_⟩⟩
  · have hl : (BitVec.ofNat 8 i.val :: code :: next :: flags :: q).length = 12 := by simp [hq]
    have hslot : slotOf (byteAt (BitVec.ofNat 8 i.val :: code :: next :: flags :: q) 0) = some i := slotOf_ofNat i
    refine ⟨fun hok free => ?_, fun hok held => ?_, fun hbad => ?_⟩
    · obtain ⟨d, hd, legal, hbytes⟩ := descriptorOf_of_legal (slot := BitVec.ofNat 8 i.val) (flags := flags) hok.1 hok.2
      have hbody := loadDescriptorBody_of_named (s := beginExecution s) hl hslot hd
      rw [beginExecution_chains, free] at hbody
      exact ⟨d, legal, hbytes, exec_of_done rfl h hbody rfl rfl⟩
    · obtain ⟨d, hd, -, -⟩ := descriptorOf_of_legal (slot := BitVec.ofNat 8 i.val) (flags := flags) hok.1 hok.2
      exact exec_of_fail .busy rfl h ((loadDescriptorBody_of_named hl hslot hd).trans (if_pos held))
    · exact exec_of_outOfRange rfl h (loadDescriptorBody_of_illegal hl (.inr (descriptorOf_of_illegal hbad)))
  · have hbody := freeDescriptorBody_of_slot (s := beginExecution s) i
    split
    next held => exact exec_of_fail .busy rfl h (hbody.trans (if_pos held))
    next free => exact exec_of_done rfl h (hbody.trans (if_neg free)) rfl rfl
  · refine (exec_of_reading (c := .readDescriptor) rfl h (readDescriptorBody_of_slot (s := beginExecution s) i)).trans ?_
    rw [beginExecution_chains]
    cases s.chains.pool[i] <;> rfl
  · have outside : slotOf b = none := slotOf_of_ge (Nat.not_lt.2 hb)
    exact ⟨fun h hl => exec_of_outOfRange rfl h (loadDescriptorBody_of_illegal (by simp [hl]) (.inl outside)),
      fun h => exec_of_outOfRange rfl h (freeDescriptorBody_of_no_slot outside),
      fun h => exec_of_outOfRange rfl h (readDescriptorBody_of_no_slot outside)⟩

end Sys2Proof.Proofs
end

section
/-! PROOFS. The canonical form, the bounds and the legal descriptors of the memories through the operations that change them (R45, R46, R97, R105
to R108), and the cells of a rectangle in the order in which an action visits them. -/

namespace Sys2Proof.Machine

/-! ## The cells of a rectangle (R105) -/

/-- R105: the k-th cell of a rectangle, row by row. -/
def rectangleCell (r : Rectangle) (k : Nat) : Nat :=
  cellIndex (r.column.toNat + k % r.width.toNat) (r.row.toNat + k / r.width.toNat)

/-- Rows of `w` elements each, one after another, are one run of elements. -/
theorem flatMap_range_eq_map {α : Type} (f : Nat → Nat → α) (w h : Nat) :
    ((List.range h).flatMap fun i => (List.range w).map fun j => f i j) =
      (List.range (w * h)).map fun k => f (k / w) (k % w) := by
  induction h with
  | zero => simp
  | succ h ih =>
    have row : ((List.range w).map fun j => f h j) = (List.range w).map fun j => f ((w * h + j) / w) ((w * h + j) % w) := by
      refine List.map_congr_left fun j hj => ?_
      have hj := List.mem_range.1 hj
      rw [Nat.mul_add_div (by omega), Nat.mul_add_mod, Nat.div_eq_of_lt hj, Nat.mod_eq_of_lt hj, Nat.add_zero]
    rw [List.range_succ, List.flatMap_append, ih, Nat.mul_succ, List.range_add, List.map_append, List.map_map]
    simp only [List.flatMap_cons, List.flatMap_nil, List.append_nil, row]
    rfl

theorem rectangleCells_eq (r : Rectangle) : rectangleCells r = (List.range (rectangleArea r)).map (rectangleCell r) :=
  flatMap_range_eq_map (fun i j => cellIndex (r.column.toNat + j) (r.row.toNat + i)) r.width.toNat r.height.toNat

theorem mem_rectangleCells {r : Rectangle} {n : Nat} : n ∈ rectangleCells r ↔ ∃ k < rectangleArea r, rectangleCell r k = n := by
  rw [rectangleCells_eq, List.mem_map]
  simp only [List.mem_range]

section
variable {r : Rectangle}

/-- R105: row and column within the rectangle of its k-th cell. -/
theorem rectangleCell_offsets (hr : r.legal) {k : Nat} (hk : k < rectangleArea r) :
    k / r.width.toNat < r.height.toNat ∧ k % r.width.toNat < r.width.toNat :=
  ⟨Nat.div_lt_of_lt_mul hk, Nat.mod_lt k hr.1⟩

/-- R45, R105: a legal rectangle lies inside the canvas. -/
theorem rectangleCell_lt (hr : r.legal) {k : Nat} (hk : k < rectangleArea r) : rectangleCell r k < Config.canvasCells := by
  obtain ⟨row, column⟩ := rectangleCell_offsets hr hk
  obtain ⟨-, -, columns, rows⟩ := hr
  simp only [rectangleCell, cellIndex, Config.cellsPerRow, Config.canvasCells]
  omega

theorem lt_of_mem_rectangleCells (hr : r.legal) {cell : Nat} (hc : cell ∈ rectangleCells r) : cell < Config.canvasCells := by
  obtain ⟨k, hk, rfl⟩ := mem_rectangleCells.1 hc
  exact rectangleCell_lt hr hk

end

/-! ## Memories in their canonical form, inside their size -/

/-- R45, R97: a memory in its canonical form, inside this size. -/
def Memory.bounded (size : Nat) (m : Memory) : Prop := m.wf = true ∧ m.within size = true

/-- R46: every byte holds three flags. -/
def Memory.flagsOnly (m : Memory) : Prop := ∀ cell ∈ m, cell.2.toNat < 8

theorem memWriteAll_bounded {size : Nat} {m : Memory} {cells : List (Nat × Byte)} (hm : m.bounded size)
    (hc : ∀ d ∈ cells, d.1 < size) : (memWriteAll m cells).bounded size :=
  ⟨memWriteAll_wf cells m hm.1, memWriteAll_within size cells m hm.2 hc⟩

theorem memWriteRun_bounded {size : Nat} {m : Memory} {start : Nat} {bytes : List Byte} (hm : m.bounded size)
    (hs : start + bytes.length ≤ size) : (memWriteRun m start bytes).bounded size :=
  ⟨memWriteRun_wf bytes m start hm.1, memWriteRun_within size bytes m start hm.2 hs⟩

theorem attributesByte_lt (a : AttributeSet) : (attributesByte a).toNat < 8 := by
  revert a; decide

theorem memWrite_flagsOnly {m : Memory} {k : Nat} {v : Byte} (hm : m.flagsOnly) (hv : v.toNat < 8) : (memWrite m k v).flagsOnly := by
  intro c hc
  rcases mem_of_mem_memWrite m k v c hc with rfl | hc
  · exact hv
  · exact hm c hc

theorem memWriteAll_flagsOnly {m : Memory} {cells : List (Nat × Byte)} (hm : m.flagsOnly) (hc : ∀ d ∈ cells, d.2.toNat < 8) :
    (memWriteAll m cells).flagsOnly :=
  fun c h => (mem_of_mem_memWriteAll cells m c h).elim (hc c) (hm c)

theorem memWriteRun_flagsOnly {bytes : List Byte} (hb : ∀ b ∈ bytes, b.toNat < 8) :
    ∀ {m : Memory} {start : Nat}, m.flagsOnly → (memWriteRun m start bytes).flagsOnly := by
  induction bytes with
  | nil => exact fun hm => hm
  | cons b bytes ih =>
    exact fun hm => ih (fun d hd => hb d (List.mem_cons_of_mem _ hd)) (memWrite_flagsOnly hm (hb b (List.mem_cons_self ..)))

/-- R46, R54: a plane filled with one byte of three flags. -/
theorem memFill_flagsOnly (size : Nat) {v : Byte} (hv : v.toNat < 8) : (memFill size v).flagsOnly := by
  intro c hc
  unfold memFill at hc
  split at hc
  · cases hc
  · obtain ⟨_, -, rfl⟩ := List.mem_map.1 hc
    exact hv

/-! ## The memories together -/

/-- R45, R46, R97, R100: what is kept of the two planes, the staging memory and the pool. -/
structure MemoriesSound (pixelPlane attributePlane stage : Memory) (slots : Vector PoolSlot 32) : Prop where
  pixels : pixelPlane.bounded Config.canvasCells
  attributes : attributePlane.bounded Config.canvasCells
  flags : attributePlane.flagsOnly
  staging : stage.bounded Config.stagingBytes
  pool : PoolLegal slots

theorem memoriesGood_iff (s : State) :
    MemoriesGood s ↔ MemoriesSound s.canvas.pixels s.canvas.attributes s.staging s.chains.pool :=
  ⟨fun h => ⟨h.pixels, h.attributes, h.flags, h.staging, h.pool⟩, fun h => ⟨h.pixels, h.attributes, h.flags, h.staging, h.pool⟩⟩

section
variable {pixels attributes staging : Memory} {pool pool' : Vector PoolSlot 32}

/-- R49: cells of the canvas written. -/
theorem MemoriesSound.writeCells {c : Canvas} (h : MemoriesSound c.pixels c.attributes staging pool) (mode : AttributeMode) (a : AttributeSet)
    {cells : List (Nat × Byte)} (hc : ∀ d ∈ cells, d.1 < Config.canvasCells) :
    MemoriesSound (writeCells mode a cells c).pixels (writeCells mode a cells c).attributes staging pool := by
  rw [writeCells_pixels, writeCells_attributes]
  have pixels := memWriteAll_bounded h.pixels hc
  cases mode with
  | keep => exact { h with pixels := pixels }
  | apply =>
    refine { h with pixels := pixels, attributes := memWriteAll_bounded h.attributes fun d hd => ?_,
                    flags := memWriteAll_flagsOnly h.flags fun d hd => ?_ }
    · obtain ⟨e, he, rfl⟩ := List.mem_map.1 hd
      exact hc e he
    · obtain ⟨e, -, rfl⟩ := List.mem_map.1 hd
      exact attributesByte_lt a

/-- R108: the sets of cells changed. -/
theorem MemoriesSound.changeCells {x y : AttributeSet} {cells : List Nat} (hc : ∀ cell ∈ cells, cell < Config.canvasCells) :
    ∀ {attributes : Memory}, MemoriesSound pixels attributes staging pool →
      MemoriesSound pixels (cells.foldl (changeCell x y) attributes) staging pool := by
  induction cells with
  | nil => exact fun h => h
  | cons cell cells ih =>
    refine fun h => ih (fun d hd => hc d (List.mem_cons_of_mem _ hd)) ?_
    exact
      { h with
        attributes := ⟨memWrite_wf _ _ _ h.attributes.1, memWrite_within _ _ _ _ h.attributes.2 (hc cell (List.mem_cons_self ..))⟩
        flags := memWrite_flagsOnly h.flags (attributesByte_lt _) }

/-- R100: a pool of which every descriptor is one that a legal pool held in the same slot. -/
theorem PoolLegal.of_records (h : PoolLegal pool) (e : ∀ (i : Fin 32) d, slotRecord pool'[i] = some d → slotRecord pool[i] = some d) :
    PoolLegal pool' := fun i d hd => h i d (e i d hd)

/-- R114, R119, R121: a pool of which some slots are changed in a way that gives none another descriptor. -/
theorem PoolLegal.of_slots {f : PoolSlot → PoolSlot} (h : PoolLegal pool)
    (hf : ∀ {x d}, slotRecord (f x) = some d → slotRecord x = some d)
    (hp : ∀ i : Fin 32, pool'[i] = pool[i] ∨ pool'[i] = f pool[i]) : PoolLegal pool' := by
  refine h.of_records fun i d hd => ?_
  rcases hp i with e | e
  · rwa [e] at hd
  · exact hf (e ▸ hd)

end

/-- R102: LOAD DESCRIPTOR reads no descriptor whose action is not legal. -/
theorem descriptorOf_legal {payload : List Byte} {d : Descriptor} (h : descriptorOf payload = some d) : d.action.legal := by
  unfold descriptorOf at h
  split at h
  next next action hn ha =>
    cases h
    have reads := actionOf_reads (payload.drop 4) (byteAt payload 1)
    by_cases ok : loadable (byteAt payload 1) (payload.drop 4)
    · obtain ⟨b, hb, legal, -⟩ := reads.accepts ok
      cases ha.symm.trans hb
      exact legal
    · cases ha.symm.trans (reads.refuses ok)
  next => cases h

/-! ## Slots of the pool -/

theorem pool_set_get (pool : Vector PoolSlot 32) (i j : Fin 32) (x : PoolSlot) : (pool.set i x)[j] = if j = i then x else pool[j] := by
  by_cases h : j = i
  · subst h
    simp
  · have hne : i.val ≠ j.val := fun e => h (Fin.ext e.symm)
    simp [h, hne]

/-- A change that does no more when it is made again has been made to a slot or not, whatever slots are listed. -/
theorem mapPoolSlots_slot {f : PoolSlot → PoolSlot} (hf : ∀ x, f (f x) = f x) (slots : List (Fin 32)) (i : Fin 32) :
    ∀ pool : Vector PoolSlot 32, (mapPoolSlots f slots pool)[i] = pool[i] ∨ (mapPoolSlots f slots pool)[i] = f pool[i] := by
  induction slots with
  | nil => exact fun _ => .inl rfl
  | cons j slots ih =>
    intro pool
    have rest := ih (pool.set j (f pool[j]))
    rw [pool_set_get] at rest
    by_cases h : i = j
    · subst h
      rw [if_pos rfl, hf, or_self] at rest
      exact .inr rest
    · rw [if_neg h] at rest
      exact rest

theorem releaseSlot_releaseSlot (x : PoolSlot) : releaseSlot (releaseSlot x) = releaseSlot x := by
  cases x with
  | free => rfl
  | loaded d => rfl
  | held h d =>
    cases hr : d.release <;> simp [releaseSlot, hr]

theorem holdSlot_holdSlot (handle : Byte) (x : PoolSlot) : holdSlot handle (holdSlot handle x) = holdSlot handle x := by
  cases x <;> rfl

theorem returnToLoaded_returnToLoaded (x : PoolSlot) : returnToLoaded (returnToLoaded x) = returnToLoaded x := by
  cases x <;> rfl

/-- R101, R119: a slot keeps its descriptor or gives it up as it leaves Held. -/
theorem slotRecord_releaseSlot {x : PoolSlot} {d : Descriptor} (h : slotRecord (releaseSlot x) = some d) : slotRecord x = some d := by
  cases x with
  | free => exact h
  | loaded e => exact h
  | held g e =>
    simp only [releaseSlot] at h
    split at h
    · cases h
    · exact h

theorem slotRecord_holdSlot (handle : Byte) (x : PoolSlot) : slotRecord (holdSlot handle x) = slotRecord x := by
  cases x <;> rfl

theorem slotRecord_returnToLoaded (x : PoolSlot) : slotRecord (returnToLoaded x) = slotRecord x := by
  cases x <;> rfl

end Sys2Proof.Machine
end

section
/-! PROOFS. The statements about the picture stores (R45 to R47, R55, R64, R79, R82, R85, R87, R92, R97, R100, R101, R111, R115): the stores are one
view of the state, each part of a step is said to change so much of that view, each command is found among the writers of what it changes, and
what it writes keeps the memories sound. -/

namespace Sys2Proof.Machine

/-! ## The stores and their writers -/

/-- The canvas, the views, the panel, the frame state, the staging memory and the descriptor pool, with what the rules name of each. -/
structure Picture where
  canvas : Canvas
  views : Views
  columns : Byte
  rows : Byte
  frameRate : Byte
  contrast : Byte
  mode : DisplayMode
  snapshot : Snapshot
  counter : Word
  blinkPeriod : Byte
  blinkCount : Byte
  blinkPhase : BlinkPhase
  staging : Memory
  pool : Vector PoolSlot 32
  lastMark : Byte
  lastHandle : Byte

/-- The picture stores of a state. -/
def picture (s : State) : Picture where
  canvas := s.canvas
  views := s.views
  columns := s.panel.columns
  rows := s.panel.rows
  frameRate := s.panel.frameRate
  contrast := s.panel.contrast
  mode := s.panel.mode
  snapshot := s.panel.snapshot
  counter := s.frames.counter
  blinkPeriod := s.frames.blinkPeriod
  blinkCount := s.frames.blinkCount
  blinkPhase := s.frames.blinkPhase
  staging := s.staging
  pool := s.chains.pool
  lastMark := s.chains.lastMark
  lastHandle := s.chains.lastHandle

/-- The memories of the picture stores are sound. -/
def Picture.sound (p : Picture) : Prop := MemoriesSound p.canvas.pixels p.canvas.attributes p.staging p.pool

theorem memoriesGood_iff_sound (s : State) : MemoriesGood s ↔ (picture s).sound := memoriesGood_iff s

/-- R101: the transitions of a pool slot, each with the commands that make it; `restart`: a posting makes a warm reset. -/
inductive SlotMove (c : Instr) (restart : Prop) : PoolSlot → PoolSlot → Prop
  | stays (x : PoolSlot) : SlotMove c restart x x
  | loads {x : PoolSlot} (d : Descriptor) (hx : x.isHeld = false) (hc : c = .loadDescriptor) : SlotMove c restart x (.loaded d)
  | frees {x : PoolSlot} (hx : x.isHeld = false) (hc : c = .freeDescriptor) : SlotMove c restart x .free
  | holds (handle : Byte) (d : Descriptor) (hc : c = .submitChain) : SlotMove c restart (.loaded d) (.held handle d)
  | leaves (handle : Byte) (d : Descriptor) (hc : boundaryCommand c = true) (hd : d.release = true) :
      SlotMove c restart (.held handle d) .free
  | returns (handle : Byte) (d : Descriptor)
      (hc : (boundaryCommand c = true ∧ d.release = false) ∨ c = .cancelChain ∨ (c = .posting ∧ restart)) :
      SlotMove c restart (.held handle d) (.loaded d)

/-- The command may change the picture stores `p` to `q`, and keeps the memories sound. -/
structure Draws (c : Instr) (restart : Prop) (p q : Picture) : Prop where
  pixels : q.canvas.pixels ≠ p.canvas.pixels → c = .writeCanvas ∨ c = .writeAtCursor ∨ c = .clearCanvas ∨ boundaryCommand c = true
  attributes : q.canvas.attributes ≠ p.canvas.attributes →
    c = .writeCanvas ∨ c = .writeAttributes ∨ c = .writeAtCursor ∨ c = .clearCanvas ∨ boundaryCommand c = true
  cursor : q.canvas.cursor ≠ p.canvas.cursor → c = .setCursor ∨ c = .writeAtCursor
  step : q.canvas.step ≠ p.canvas.step → c = .setCursor
  staging : q.staging ≠ p.staging → c = .stage
  views : q.views.primary ≠ p.views.primary ∨ q.views.fallback ≠ p.views.fallback → c = .setView ∨ boundaryCommand c = true
  source : q.views.source ≠ p.views.source → c = .selectViews ∨ tickCommand c = true
  backdrop : q.views.backdrop ≠ p.views.backdrop → c = .setBackdrop
  panel : q.columns ≠ p.columns ∨ q.rows ≠ p.rows ∨ q.frameRate ≠ p.frameRate → c = .configurePanel
  contrast : q.contrast ≠ p.contrast → c = .setContrast
  mode : q.mode ≠ p.mode → c = .setDisplayMode ∨ tickCommand c = true
  frame : q.snapshot ≠ p.snapshot ∨ q.counter ≠ p.counter → boundaryCommand c = true
  blinkPeriod : q.blinkPeriod ≠ p.blinkPeriod → c = .setBlink
  blink : q.blinkCount ≠ p.blinkCount ∨ q.blinkPhase ≠ p.blinkPhase → c = .setBlink ∨ boundaryCommand c = true
  lastMark : q.lastMark ≠ p.lastMark → boundaryCommand c = true
  lastHandle : q.lastHandle ≠ p.lastHandle → c = .submitChain
  pool : ∀ i : Fin 32, SlotMove c restart p.pool[i] q.pool[i]
  sound : p.sound → q.sound

section
variable {c : Instr} {restart : Prop} {p q : Picture}

/-- Every command may leave the stores as they are. -/
theorem Draws.refl (c : Instr) (restart : Prop) (p : Picture) : Draws c restart p p where
  pixels h := absurd rfl h
  attributes h := absurd rfl h
  cursor h := absurd rfl h
  step h := absurd rfl h
  staging h := absurd rfl h
  views h := h.elim (absurd rfl) (absurd rfl)
  source h := absurd rfl h
  backdrop h := absurd rfl h
  panel h := h.elim (absurd rfl) fun h => h.elim (absurd rfl) (absurd rfl)
  contrast h := absurd rfl h
  mode h := absurd rfl h
  frame h := h.elim (absurd rfl) (absurd rfl)
  blinkPeriod h := absurd rfl h
  blink h := h.elim (absurd rfl) (absurd rfl)
  lastMark h := absurd rfl h
  lastHandle h := absurd rfl h
  pool _ := .stays _
  sound := id

theorem Draws.of_eq (h : q = p) : Draws c restart p q := h ▸ .refl c restart p

/-- A change that may have been made to a slot. -/
theorem SlotMove.of_or {f : PoolSlot → PoolSlot} {x y : PoolSlot} (h : y = x ∨ y = f x) (hm : SlotMove c restart x (f x)) :
    SlotMove c restart x y := by
  rcases h with rfl | rfl
  · exact .stays _
  · exact hm

/-- R101: a change of the pool alone. -/
theorem Draws.of_pool {pool : Vector PoolSlot 32} (hm : ∀ i : Fin 32, SlotMove c restart p.pool[i] pool[i])
    (hl : PoolLegal p.pool → PoolLegal pool) : Draws c restart p { p with pool := pool } :=
  { Draws.refl c restart p with pool := hm, sound := fun h => { h with pool := hl h.pool } }

/-! ## The requests (R37) -/

/-- What the effect that a verdict makes may change. -/
def Verdict.draws (c : Instr) (restart : Prop) (s : State) : Verdict → Prop
  | .fail _ _ => True
  | .done after _ _ => Draws c restart (picture s) (picture after)

section
variable {s : State}

theorem draws_ite {b : Prop} [Decidable b] {v w : Verdict} (hv : b → v.draws c restart s) (hw : ¬ b → w.draws c restart s) :
    (if b then v else w).draws c restart s := by
  split
  · exact hv ‹_›
  · exact hw ‹_›

/-- R36: a check that fails leaves the state alone. -/
theorem draws_checked {b : Prop} [Decidable b] {code : OutcomeCode} {result : List Byte} {v : Verdict} (h : ¬ b → v.draws c restart s) :
    (if b then .fail code result else v : Verdict).draws c restart s :=
  draws_ite (fun _ => trivial) h

/-- R36: a check that passes, before the effect is made. -/
theorem draws_passed {b : Prop} [Decidable b] {code : OutcomeCode} {result : List Byte} {v : Verdict} (h : b → v.draws c restart s) :
    (if b then v else .fail code result : Verdict).draws c restart s :=
  draws_ite h fun _ => trivial

/-- An effect on other stores. -/
theorem draws_elsewhere {t : State} (h : picture t = picture s) : (doneWith t).draws c restart s := Draws.of_eq h

/-- A request that reads, where one check decides. -/
theorem reading_draws {b : Prop} [Decidable b] {code : OutcomeCode} {result bytes : List Byte} :
    (if b then .fail code bytes else doneReading s result : Verdict).draws c restart s :=
  draws_checked fun _ => .refl ..

end

section
variable (c restart) (payload : List Byte) (s : State)

/-! ### The canvas -/

/-- R48: a run that fits lies inside the canvas. -/
theorem runFits_iff (start n : Nat) : runFits start n = true ↔ start + n ≤ Config.canvasCells := decide_eq_true_iff

theorem lt_of_mem_runCells {start : Nat} {pixels : List Byte} (h : start + pixels.length ≤ Config.canvasCells) :
    ∀ d ∈ runCells start pixels, d.1 < Config.canvasCells := by
  intro d hd
  obtain ⟨k, hk, e⟩ := List.mem_map.1 (List.of_mem_zip hd).1
  have hk := List.mem_range.1 hk
  omega

theorem writeCanvasBody_draws : (writeCanvasBody payload s).draws .writeCanvas restart s := by
  refine draws_checked fun hl => ?_
  split
  · refine draws_passed fun hf => ?_
    have inside := lt_of_mem_runCells (pixels := payload.drop 4) (by simpa using (runFits_iff _ _).1 hf)
    exact
      { Draws.refl .writeCanvas restart (picture s) with
        pixels := fun _ => .inl rfl
        attributes := fun _ => .inl rfl
        cursor := fun h => absurd (writeCells_cursor _ _ _ _).1 h
        step := fun h => absurd (writeCells_cursor _ _ _ _).2 h
        sound := fun h => MemoriesSound.writeCells h _ _ inside }
  · trivial

theorem writeAttributesBody_draws : (writeAttributesBody payload s).draws .writeAttributes restart s := by
  refine draws_checked fun hl => ?_
  split
  · refine draws_passed fun hf => ?_
    have flags : ∀ b ∈ (payload.drop 2).map storedAttributes, b.toNat < 8 := by
      intro b hb
      obtain ⟨a, -, rfl⟩ := List.mem_map.1 hb
      exact attributesByte_lt _
    exact
      { Draws.refl .writeAttributes restart (picture s) with
        attributes := fun _ => .inr (.inl rfl)
        sound := fun h =>
          { h with
            attributes := memWriteRun_bounded h.attributes (by simpa using (runFits_iff _ _).1 hf)
            flags := memWriteRun_flagsOnly flags h.flags } }
  · trivial

theorem clearCanvasBody_draws : (clearCanvasBody payload s).draws .clearCanvas restart s :=
  draws_checked fun _ => draws_passed fun _ =>
    { Draws.refl .clearCanvas restart (picture s) with
      pixels := fun _ => .inr (.inr (.inl rfl))
      attributes := fun _ => .inr (.inr (.inr (.inl rfl)))
      sound := fun h =>
        { h with
          pixels := memFill_wf _ _
          attributes := memFill_wf _ _
          flags := memFill_flagsOnly _ (attributesByte_lt _) } }

theorem setCursorBody_draws : (setCursorBody payload s).draws .setCursor restart s := by
  refine draws_checked fun _ => draws_checked fun _ => ?_
  split
  · exact { Draws.refl .setCursor restart (picture s) with cursor := fun _ => .inl rfl, step := fun _ => rfl }
  · trivial

theorem lt_of_mem_cursorCells {cursor : BitVec 12} {step : CursorStep} {pixels : List Byte} :
    ∀ d ∈ cursorCells cursor step pixels, d.1 < Config.canvasCells := by
  intro d hd
  obtain ⟨k, -, e⟩ := List.mem_map.1 (List.of_mem_zip hd).1
  exact e ▸ BitVec.isLt _

theorem writeAtCursorBody_draws : (writeAtCursorBody payload s).draws .writeAtCursor restart s := by
  refine draws_checked fun _ => ?_
  split
  · exact
      { Draws.refl .writeAtCursor restart (picture s) with
        pixels := fun _ => .inr (.inl rfl)
        attributes := fun _ => .inr (.inr (.inl rfl))
        cursor := fun _ => .inr rfl
        step := fun h => absurd (writeCells_cursor _ _ _ _).2 h
        sound := fun h => MemoriesSound.writeCells h _ _ lt_of_mem_cursorCells }
  · trivial

theorem readCanvasBody_draws : (readCanvasBody payload s).draws c restart s := by
  refine draws_checked fun _ => ?_
  split
  · exact .refl ..
  · trivial

theorem readAttributesBody_draws : (readAttributesBody payload s).draws c restart s := by
  refine draws_checked fun _ => ?_
  split
  · exact .refl ..
  · trivial

/-! ### The views and the panel -/

theorem setView_source_backdrop (v : Views) (t : ViewTable) (i : Fin 4) (x : View) :
    (v.setView t i x).source = v.source ∧ (v.setView t i x).backdrop = v.backdrop := by
  cases t <;> exact ⟨rfl, rfl⟩

theorem setViewBody_draws : (setViewBody payload s).draws .setView restart s := by
  refine draws_checked fun _ => ?_
  split
  · exact draws_passed fun _ =>
      { Draws.refl .setView restart (picture s) with
        views := fun _ => .inl rfl
        source := fun h => absurd (setView_source_backdrop ..).1 h
        backdrop := fun h => absurd (setView_source_backdrop ..).2 h }
  · trivial

theorem getViewBody_draws : (getViewBody payload s).draws c restart s := by
  refine draws_checked fun _ => ?_
  split
  · exact .refl ..
  · trivial

theorem setBackdropBody_draws : (setBackdropBody payload s).draws .setBackdrop restart s :=
  draws_checked fun _ => draws_passed fun _ => { Draws.refl .setBackdrop restart (picture s) with backdrop := fun _ => rfl }

theorem selectViewsBody_draws : (selectViewsBody payload s).draws .selectViews restart s := by
  refine draws_checked fun _ => ?_
  split
  · exact { Draws.refl .selectViews restart (picture s) with source := fun _ => .inl rfl }
  · trivial

theorem configurePanelBody_draws : (configurePanelBody payload s).draws .configurePanel restart s :=
  draws_checked fun _ => draws_checked fun _ => draws_checked fun _ =>
    { Draws.refl .configurePanel restart (picture s) with panel := fun _ => rfl }

theorem setDisplayModeBody_draws : (setDisplayModeBody payload s).draws .setDisplayMode restart s := by
  refine draws_checked fun _ => ?_
  split
  · exact { Draws.refl .setDisplayMode restart (picture s) with mode := fun _ => .inl rfl }
  · trivial

theorem setContrastBody_draws : (setContrastBody payload s).draws .setContrast restart s :=
  draws_checked fun _ => draws_passed fun _ => { Draws.refl .setContrast restart (picture s) with contrast := fun _ => rfl }

theorem setBlinkBody_draws : (setBlinkBody payload s).draws .setBlink restart s :=
  draws_checked fun _ => draws_passed fun _ =>
    { Draws.refl .setBlink restart (picture s) with blinkPeriod := fun _ => rfl, blink := fun _ => .inl rfl }

/-! ### The staging memory and the chains -/

theorem stageBody_draws : (stageBody payload s).draws .stage restart s := by
  refine draws_checked fun hl => draws_checked fun hs => draws_checked fun _ => ?_
  exact
    { Draws.refl .stage restart (picture s) with
      staging := fun _ => rfl
      sound := fun h => { h with staging := memWriteRun_bounded h.staging (by rw [List.length_drop]; omega) } }

/-- R102, R103: one slot receives another content. -/
theorem setPoolSlot_draws {i : Fin 32} {x : PoolSlot} (hmove : SlotMove c restart s.chains.pool[i] x)
    (hlegal : ∀ d, slotRecord x = some d → d.action.legal) : Draws c restart (picture s) (picture (setPoolSlot i x s)) := by
  refine Draws.of_pool (p := picture s) (pool := s.chains.pool.set i x) (fun j => ?_) fun h j d hd => ?_
  · rw [pool_set_get]
    by_cases e : j = i
    · rw [if_pos e, e]
      exact hmove
    · rw [if_neg e]
      exact .stays _
  · rw [pool_set_get] at hd
    by_cases e : j = i
    · rw [if_pos e] at hd
      exact hlegal d hd
    · rw [if_neg e] at hd
      exact h j d hd

theorem loadDescriptorBody_draws : (loadDescriptorBody payload s).draws .loadDescriptor restart s := by
  refine draws_checked fun _ => ?_
  split
  next i d _ hd =>
    refine draws_checked fun held => setPoolSlot_draws .loadDescriptor restart s ?_ fun e he => ?_
    · exact .loads d (Bool.eq_false_iff.2 held) rfl
    · cases he
      exact descriptorOf_legal hd
  next => trivial

theorem freeDescriptorBody_draws : (freeDescriptorBody payload s).draws .freeDescriptor restart s := by
  refine draws_checked fun _ => ?_
  split
  · exact draws_checked fun held => setPoolSlot_draws .freeDescriptor restart s (.frees (Bool.eq_false_iff.2 held) rfl) nofun
  · trivial

theorem readDescriptorBody_draws : (readDescriptorBody payload s).draws c restart s := by
  refine draws_checked fun _ => ?_
  split
  · exact .refl ..
  · trivial

theorem SlotMove.held (hc : c = .submitChain) (handle : Byte) (x : PoolSlot) : SlotMove c restart x (holdSlot handle x) := by
  cases x with
  | loaded d => exact .holds handle d hc
  | _ => exact .stays _

/-- R114: the slots of a submitted chain become Held. -/
theorem queueChain_draws (head : Fin 32) (slots : List (Fin 32)) (due : Word) (urgent : Bool) :
    (queueChain head slots due urgent s).draws .submitChain restart s :=
  have held (handle : Byte) := fun i => mapPoolSlots_slot (holdSlot_holdSlot handle) slots i s.chains.pool
  { Draws.refl .submitChain restart (picture s) with
    lastHandle := fun _ => rfl
    pool := fun i => .of_or (held _ i) (.held _ _ rfl _ _)
    sound := fun h => { h with pool := h.pool.of_slots (fun hd => (slotRecord_holdSlot _ _).symm.trans hd) (held _) } }

theorem submitChainBody_draws : (submitChainBody payload s).draws .submitChain restart s := by
  refine draws_checked fun _ => ?_
  split
  · refine draws_checked fun _ => draws_checked fun _ => ?_
    split
    · trivial
    · exact queueChain_draws restart s _ _ _ _
  · trivial

/-- R121, R182: slots that return to Loaded from Held. -/
theorem SlotMove.returned (hc : c = .cancelChain ∨ (c = .posting ∧ restart)) (x : PoolSlot) :
    SlotMove c restart x (returnToLoaded x) := by
  cases x with
  | held g d => exact .returns g d (.inr hc)
  | _ => exact .stays _

theorem cancelPending_draws (chain : PendingChain) :
    Draws .cancelChain restart (picture s) (picture (cancelPending chain s)) := by
  have freed := fun i =>
    mapPoolSlots_slot returnToLoaded_returnToLoaded (chainSlots s.chains.pool 32 chain.head) i s.chains.pool
  exact Draws.of_pool (p := picture s) (fun i => .of_or (freed i) (.returned _ _ (.inl rfl) _)) fun h =>
    h.of_slots (fun hd => (slotRecord_returnToLoaded _).symm.trans hd) freed

theorem cancelChainBody_draws : (cancelChainBody payload s).draws .cancelChain restart s := by
  refine draws_checked fun _ => draws_checked fun _ => ?_
  split
  · exact cancelPending_draws restart s _
  · trivial

/-! ### The keys, the timebase and the power state -/

theorem picture_beyondKeys : picture (beyondKeys s) = picture s := rfl

theorem picture_returnToRun : picture (returnToRun s) = picture s := by
  rw [returnToRun_eq]
  rfl

theorem configureScanBody_draws : (configureScanBody payload s).draws c restart s := by
  refine draws_checked fun _ => ?_
  split
  next config _ =>
    obtain ⟨armed, e⟩ := configureScan_eq s config
    exact draws_elsewhere (e ▸ rfl)
  next => trivial

theorem setKeyBody_draws : (setKeyBody payload s).draws c restart s := by
  refine draws_checked fun _ => ?_
  split
  · refine draws_elsewhere ?_
    rw [← picture_beyondKeys, beyondKeys_setKey]
    rfl
  · trivial

theorem takeKeysBody_draws : (takeKeysBody payload s).draws c restart s :=
  draws_checked fun _ => draws_passed fun _ => .refl ..

theorem setAlarmBody_draws : (setAlarmBody payload s).draws c restart s := by
  refine draws_checked fun _ => ?_
  split
  · trivial
  · exact draws_checked fun _ => .refl ..

theorem setLinkWatchBody_draws : (setLinkWatchBody payload s).draws c restart s := by
  refine draws_checked fun _ => ?_
  split
  next action _ _ =>
    obtain ⟨count, e⟩ := setWatch_eq s (byteAt payload 0) action
    exact draws_elsewhere (e ▸ rfl)
  next => trivial

theorem enterDozeBody_draws : (enterDozeBody payload s).draws c restart s :=
  draws_checked fun _ => draws_ite (fun _ => .refl ..) fun _ => draws_checked fun _ => .refl ..

theorem enterSleepBody_draws : (enterSleepBody payload s).draws c restart s :=
  draws_checked fun _ => draws_checked fun _ => draws_checked fun _ => .refl ..

theorem wakeBody_draws : (wakeBody payload s).draws c restart s :=
  draws_checked fun _ => draws_ite (fun _ => draws_elsewhere (picture_returnToRun s)) fun _ => .refl ..

end

/-- R37: what the effect of every request of the catalogue may change. -/
theorem requestBody_draws {kind : Byte} (h : requestCode c = some kind) (restart : Prop) (payload : List Byte) (s : State) :
    (requestBody c payload s).draws c restart s := by
  cases c with
  | identify | echo | getStatus | clearCounters | chainStatus | flushKeys | getKeyStates | readTime => exact reading_draws
  | restart => exact draws_checked fun _ => .refl ..
  | configurePanel => exact configurePanelBody_draws restart payload s
  | setDisplayMode => exact setDisplayModeBody_draws restart payload s
  | setContrast => exact setContrastBody_draws restart payload s
  | setBlink => exact setBlinkBody_draws restart payload s
  | writeCanvas => exact writeCanvasBody_draws restart payload s
  | readCanvas => exact readCanvasBody_draws _ restart payload s
  | writeAttributes => exact writeAttributesBody_draws restart payload s
  | readAttributes => exact readAttributesBody_draws _ restart payload s
  | setCursor => exact setCursorBody_draws restart payload s
  | writeAtCursor => exact writeAtCursorBody_draws restart payload s
  | clearCanvas => exact clearCanvasBody_draws restart payload s
  | setView => exact setViewBody_draws restart payload s
  | getView => exact getViewBody_draws _ restart payload s
  | setBackdrop => exact setBackdropBody_draws restart payload s
  | selectViews => exact selectViewsBody_draws restart payload s
  | stage => exact stageBody_draws restart payload s
  | loadDescriptor => exact loadDescriptorBody_draws restart payload s
  | freeDescriptor => exact freeDescriptorBody_draws restart payload s
  | readDescriptor => exact readDescriptorBody_draws _ restart payload s
  | submitChain => exact submitChainBody_draws restart payload s
  | cancelChain => exact cancelChainBody_draws restart payload s
  | configureScan => exact configureScanBody_draws _ restart payload s
  | setKey => exact setKeyBody_draws _ restart payload s
  | takeKeys => exact takeKeysBody_draws _ restart payload s
  | setAlarm => exact setAlarmBody_draws _ restart payload s
  | setLinkWatch => exact setLinkWatchBody_draws _ restart payload s
  | enterDoze => exact enterDozeBody_draws _ restart payload s
  | enterSleep => exact enterSleepBody_draws _ restart payload s
  | wake => exact wakeBody_draws _ restart payload s
  | _ => cases h

/-- R30, R36, R37: what an execution step may change, where its body can do no more. -/
theorem execute_draws (accepts : Byte → Bool) {body : List Byte → State → Verdict} (s : State)
    (hb : ∀ payload t, (body payload t).draws c restart t) : Draws c restart (picture s) (picture (execute accepts body s)) := by
  rcases execute_cases accepts body s with e | ⟨slot, -, -, e⟩
  · exact .of_eq (congrArg picture e)
  · rw [e]
    have drawn := hb slot.payload (beginExecution s)
    cases hv : body slot.payload (beginExecution s) with
    | fail code result => exact .refl ..
    | done after result effect =>
      rw [hv] at drawn
      exact drawn

end

section
variable (s : State)

/-! ## What leaves the picture stores as they are -/

@[simp] theorem picture_closeStep : picture (closeStep s) = picture s := by
  rw [closeStep_eq]
  have rejected : picture (withReject s) = picture s := by
    rw [withReject_requests]
    rfl
  rw [← rejected]
  unfold sleptIfQuiet
  split <;> rfl

theorem picture_enterSleepIfReady : picture (enterSleepIfReady s) = picture s := by
  rw [enterSleepIfReady_eq]
  unfold sleptIfQuiet
  split <;> rfl

theorem picture_resumeEngine : picture (resumeEngine s) = picture s := by
  unfold resumeEngine
  split <;> rfl

theorem picture_contactChanges (k : Fin 64) (closed : Bool) : picture (contactChanges k closed s) = picture s := by
  obtain ⟨contacts, armed, due, e⟩ := contactChanges_eq k closed s
  rw [e]
  rfl

theorem picture_scanPassStep (longGhosts : KeySet) : picture (scanPassStep longGhosts s) = picture s :=
  have same (t : State) : picture (beyondPass t) = picture t := rfl
  (same _).symm.trans ((congrArg picture (beyondPass_scanPassStep s longGhosts)).trans (same s))

theorem picture_readLinkData : picture (readLinkData s) = picture s := by
  unfold readLinkData
  split
  · rfl
  · exact picture_closeStep _

/-- R3, R174: a write to a port address leaves the picture stores but where it is a FULL RESET that resets the part. -/
theorem picture_portWrite (address : PortAddress) (value : Byte) :
    picture (portWrite address value s) = picture s ∨
      (picture (portWrite address value s) = picture State.reset ∧ address = 1 ∧ value.getLsbD 1 = true) := by
  have linkData : picture (writeLinkData value s) = picture s := by
    unfold writeLinkData holdByte
    split
    · rfl
    · split
      · dsimp only
        split <;> rfl
      · rfl
  have resync : picture (resyncLink s) = picture s := by
    unfold resyncLink
    split
    · rfl
    · exact picture_closeStep _
  have control : picture (writeLinkControl value s) = picture s ∨
      (picture (writeLinkControl value s) = picture State.reset ∧ value.getLsbD 1 = true) := by
    unfold writeLinkControl fullResetPart
    split
    next hv =>
      split
      · exact .inl rfl
      · exact .inr ⟨rfl, hv⟩
    next =>
      split
      · exact .inl resync
      · exact .inl rfl
  by_cases h1 : address = 1
  · subst h1
    exact control.imp_right fun h => ⟨h.1, rfl, h.2⟩
  · refine .inl ?_
    unfold portWrite
    rw [if_neg h1]
    split
    · rfl
    · split
      · exact linkData
      · split_ifs <;> rfl

/-- R7, R13 to R18: the taking of a byte. -/
theorem picture_takingStep : picture (takingStep s) = picture s := by
  have complete (sum : Byte) (damaged : Bool) (t : State) : picture (completeParcel sum damaged t) = picture t := by
    unfold completeParcel
    split
    · rfl
    · split
      · rw [goodParcel_eq]
        rfl
      · rfl
  have length (preMark : Bool) (b : Byte) (t : State) : picture (takeLength preMark b t) = picture t := by
    unfold takeLength abandonSleep
    split
    · split <;> rfl
    · rfl
  unfold takingStep
  split
  · rfl
  next b _ =>
    split
    · rw [picture_closeStep]
      unfold handleByte
      split
      · exact length _ b _
      · unfold takeCollecting
        split
        · exact complete _ _ _
        · rfl
      · rfl
    · rfl

/-! ## The tick (R164, R169) -/

/-- R169: the fallback action may change the view source and the display mode; no other timer touches the picture stores. -/
theorem picture_tickStep :
    ∃ source mode, picture (tickStep s) = { picture s with views := { s.views with source := source }, mode := mode } := by
  have gap (t : State) : picture (serveGap t) = picture t := by
    unfold serveGap
    split
    · rfl
    · split <;> rfl
    · split <;> rfl
  have passes (t : State) : picture (servePassTimer t) = picture t := by
    rw [servePassTimer_eq]
    rfl
  have alarm (t : State) : picture (serveAlarm t) = picture t := by
    unfold serveAlarm alarmExpires
    split
    · rfl
    · split
      · dsimp only
        split
        · exact picture_returnToRun _
        · rfl
      · rfl
  have watch (t : State) : ∃ source mode,
      picture (serveWatch t) = { picture t with views := { t.views with source := source }, mode := mode } := by
    unfold serveWatch watchExpires
    split
    · split
      · cases t.time.watchAction with
        | none => exact ⟨t.views.source, t.panel.mode, rfl⟩
        | fallback => exact ⟨.fallback, t.panel.mode, rfl⟩
        | fallbackAndShow => exact ⟨.fallback, fallbackMode t.panel.mode, rfl⟩
      · exact ⟨t.views.source, t.panel.mode, rfl⟩
    · exact ⟨t.views.source, t.panel.mode, rfl⟩
  unfold tickStep
  split
  · rw [picture_closeStep]
    obtain ⟨source, mode, e⟩ := watch (serveAlarm (servePassTimer (serveGap (advanceTick s))))
    have before : picture (serveAlarm (servePassTimer (serveGap (advanceTick s)))) = picture s := by
      rw [alarm, passes, gap]
      rfl
    refine ⟨source, mode, e.trans ?_⟩
    have views : (serveAlarm (servePassTimer (serveGap (advanceTick s)))).views = s.views := congrArg Picture.views before
    rw [before, views]
  · exact ⟨s.views.source, s.panel.mode, rfl⟩

/-! ## The posting (R33, R182) -/

theorem picture_warmReset :
    picture (warmReset s) = { picture s with pool := Vector.ofFn fun i => returnToLoaded s.chains.pool[i] } := rfl

/-- R182: the posting of the REPLY of a RESTART resets the part warm; no other posting touches the picture stores. -/
theorem picture_postingStep :
    picture (postingStep s) = picture s ∨ (restartHeld s ∧ picture (postingStep s) = picture (warmReset s)) := by
  unfold postingStep
  split
  next a hpost =>
    have held : s.requests.engine = .replying a := by
      unfold postable at hpost
      split at hpost
      next b hb =>
        split at hpost <;> cases hpost
        exact hb
      all_goals cases hpost
    rw [picture_closeStep]
    cases hf : a.effect with
    | nothing => exact .inl rfl
    | warmReset => exact .inr ⟨⟨a, held, hf⟩, rfl⟩
    | enterDoze =>
      refine .inl ?_
      show picture (enterLowPower .doze (postBytes a s)) = _
      rw [enterLowPower_eq]
      rfl
    | enterSleep => exact .inl rfl
  · exact .inl rfl

/-- R101, R182: a posting returns Held slots to Loaded, where it resets the part warm. -/
theorem postingStep_draws : Draws .posting (restartHeld s) (picture s) (picture (postingStep s)) := by
  rcases picture_postingStep s with e | ⟨held, e⟩
  · exact .of_eq e
  · have slot (i : Fin 32) : (Vector.ofFn fun i : Fin 32 => returnToLoaded s.chains.pool[i])[i] = returnToLoaded s.chains.pool[i] :=
      Vector.getElem_ofFn i.isLt
    rw [e, picture_warmReset]
    refine Draws.of_pool (p := picture s) (fun i => ?_) fun h =>
      h.of_slots (fun hd => (slotRecord_returnToLoaded _).symm.trans hd) fun i => .inr (slot i)
    rw [slot]
    exact .returned _ _ (.inr ⟨rfl, held⟩) _

end

/-! ## The boundary (R89) -/

/-- The picture stores without those that a boundary may write. -/
def Picture.beyondFrame (p : Picture) : Picture :=
  { p with
    canvas := { p.canvas with pixels := [], attributes := [] }
    views := { p.views with primary := defaultViews.primary, fallback := defaultViews.fallback }
    snapshot := defaultSnapshot, counter := 0, blinkCount := 0, blinkPhase := .shown, pool := defaultChains.pool, lastMark := 0 }

/-- What the steps of a boundary may change: slots leave Held as R119 says, and the memories stay sound. -/
structure FrameDraws (p q : Picture) : Prop where
  kept : q.beyondFrame = p.beyondFrame
  pool : ∀ i : Fin 32, q.pool[i] = p.pool[i] ∨ q.pool[i] = releaseSlot p.pool[i]
  sound : p.sound → q.sound

section
variable {p q u : Picture}

theorem FrameDraws.refl (p : Picture) : FrameDraws p p := ⟨rfl, fun _ => .inl rfl, id⟩

theorem FrameDraws.trans (h : FrameDraws p q) (h' : FrameDraws q u) : FrameDraws p u where
  kept := h'.kept.trans h.kept
  pool := fun i => by
    rcases h.pool i with e | e <;> rcases h'.pool i with e' | e'
    · exact .inl (e'.trans e)
    · exact .inr (e'.trans (congrArg releaseSlot e))
    · exact .inr (e'.trans e)
    · exact .inr (e'.trans ((congrArg releaseSlot e).trans (releaseSlot_releaseSlot _)))
  sound := fun hp => h'.sound (h.sound hp)

/-- R119: a slot that leaves Held as its chain has been applied. -/
theorem SlotMove.released {c : Instr} {restart : Prop} (hc : boundaryCommand c = true) (x : PoolSlot) :
    SlotMove c restart x (releaseSlot x) := by
  cases x with
  | held g d =>
    cases hd : d.release with
    | true => simpa [releaseSlot, hd] using SlotMove.leaves g d hc hd
    | false => simpa [releaseSlot, hd] using SlotMove.returns g d (.inl ⟨hc, hd⟩)
  | _ => exact .stays _

/-- R89, R101: a boundary is a writer of what its steps may change. -/
theorem FrameDraws.draws (h : FrameDraws p q) {c : Instr} (hc : boundaryCommand c = true) (restart : Prop) : Draws c restart p q where
  pixels _ := .inr (.inr (.inr hc))
  attributes _ := .inr (.inr (.inr (.inr hc)))
  cursor hne := absurd (congrArg (fun p => p.canvas.cursor) h.kept) hne
  step hne := absurd (congrArg (fun p => p.canvas.step) h.kept) hne
  staging hne := absurd (congrArg (fun p => p.staging) h.kept) hne
  views _ := .inr hc
  source hne := absurd (congrArg (fun p => p.views.source) h.kept) hne
  backdrop hne := absurd (congrArg (fun p => p.views.backdrop) h.kept) hne
  panel hne := hne.elim (absurd (congrArg (fun p => p.columns) h.kept)) fun hne =>
    hne.elim (absurd (congrArg (fun p => p.rows) h.kept)) (absurd (congrArg (fun p => p.frameRate) h.kept))
  contrast hne := absurd (congrArg (fun p => p.contrast) h.kept) hne
  mode hne := absurd (congrArg (fun p => p.mode) h.kept) hne
  frame _ := hc
  blinkPeriod hne := absurd (congrArg (fun p => p.blinkPeriod) h.kept) hne
  blink _ := .inr hc
  lastMark _ := hc
  lastHandle hne := absurd (congrArg (fun p => p.lastHandle) h.kept) hne
  pool i := .of_or (h.pool i) (.released hc _)
  sound := h.sound

end

/-! ### The chains of a boundary (R106 to R111, R118, R119) -/

section
variable (s : State)

theorem applyAction_kept (a : Action) : (picture (applyAction a s)).beyondFrame = (picture s).beyondFrame := by
  have canvas (mode : AttributeMode) (a : AttributeSet) (cells : List (Nat × Byte)) :
      (picture { s with canvas := writeCells mode a cells s.canvas }).beyondFrame = (picture s).beyondFrame := by
    simp only [Picture.beyondFrame, picture, writeCells_cursor]
  have views (t : ViewTable) (i : Fin 4) (x : View) :
      (picture { s with views := s.views.setView t i x }).beyondFrame = (picture s).beyondFrame := by
    simp only [Picture.beyondFrame, picture, setView_source_backdrop]
  cases a with
  | copy offset r m a => exact canvas ..
  | fill r pattern m a => exact canvas ..
  | attributes r x y => rfl
  | origin t i x y =>
    show (picture (applyOrigin t i x y s)).beyondFrame = _
    unfold applyOrigin
    split
    · rfl
    · exact views ..
  | visibility t i enabled => exact views ..
  | mark value => rfl

theorem applyAction_sound {a : Action} (ha : a.legal) (h : (picture s).sound) : (picture (applyAction a s)).sound := by
  cases a with
  | copy offset r m a => exact MemoriesSound.writeCells h m a fun d hd => lt_of_mem_rectangleCells ha.1 (List.of_mem_zip hd).1
  | fill r pattern m a =>
    refine MemoriesSound.writeCells h m a fun d hd => ?_
    obtain ⟨cell, hcell, rfl⟩ := List.mem_map.1 hd
    exact lt_of_mem_rectangleCells ha hcell
  | attributes r x y => exact MemoriesSound.changeCells (fun _ => lt_of_mem_rectangleCells ha) h
  | origin t i x y =>
    show (picture (applyOrigin t i x y s)).sound
    unfold applyOrigin
    split
    · exact h
    · exact h
  | visibility t i enabled => exact h
  | mark value => exact h

variable {s}

theorem runActions_kept (actions : List Action) : (picture (runActions actions s)).beyondFrame = (picture s).beyondFrame := by
  induction actions generalizing s with
  | nil => rfl
  | cons a rest ih => exact ih.trans (applyAction_kept s a)

theorem runActions_sound {actions : List Action} (ha : ∀ a ∈ actions, a.legal) (h : (picture s).sound) :
    (picture (runActions actions s)).sound := by
  induction actions generalizing s with
  | nil => exact h
  | cons a rest ih =>
    exact ih (fun b hb => ha b (List.mem_cons_of_mem _ hb)) (applyAction_sound s (ha a (List.mem_cons_self ..)) h)

theorem runActions_pool (actions : List Action) : (runActions actions s).chains.pool = s.chains.pool := by
  obtain ⟨_, _, _, _, e⟩ := runActions_frame actions s
  rw [e]

/-- R118: the actions of a walk are actions of descriptors of the pool. -/
theorem chainActions_legal {pool : Vector PoolSlot 32} (h : PoolLegal pool) (slots : List (Fin 32)) :
    ∀ a ∈ chainActions pool slots, a.legal := by
  intro a ha
  obtain ⟨i, -, e⟩ := List.mem_filterMap.1 ha
  obtain ⟨d, hd, rfl⟩ := Option.map_eq_some_iff.1 e
  exact h i d hd

/-- R118, R119: one chain. -/
theorem applyChain_draws (c : PendingChain) : FrameDraws (picture s) (picture (applyChain c s)) := by
  have released (i : Fin 32) : (applyChain c s).chains.pool[i] = s.chains.pool[i] ∨
      (applyChain c s).chains.pool[i] = releaseSlot s.chains.pool[i] := by
    simp only [applyChain, finishChain, runActions_pool]
    exact mapPoolSlots_slot releaseSlot_releaseSlot _ i _
  refine ⟨runActions_kept _, released, fun h => ?_⟩
  have acted := runActions_sound (chainActions_legal h.pool (chainSlots s.chains.pool 32 c.head)) h
  exact { acted with pool := h.pool.of_slots slotRecord_releaseSlot released }

theorem applyDueChains_draws : FrameDraws (picture s) (picture (applyDueChains s)) := by
  have chains (cs : List PendingChain) (t : State) : FrameDraws (picture t) (picture (cs.foldl (fun t c => applyChain c t) t)) := by
    induction cs generalizing t with
    | nil => exact .refl _
    | cons c rest ih => exact (applyChain_draws c).trans (ih _)
  unfold applyDueChains
  dsimp only
  split
  · exact chains _ s
  · exact chains _ s

/-- R89: the nine steps. -/
theorem boundary_draws : FrameDraws (picture s) (picture (boundary s)) := by
  have blink (t : State) : FrameDraws (picture t) (picture (advanceBlink t)) := by
    unfold advanceBlink
    split <;> exact ⟨rfl, fun _ => .inl rfl, id⟩
  have count : FrameDraws (picture s) (picture (countFrame (setEngine .suspended s))) := ⟨rfl, fun _ => .inl rfl, id⟩
  have scroll (t : State) : FrameDraws (picture t) (picture (autoScroll t)) := ⟨rfl, fun _ => .inl rfl, id⟩
  have opened (e : EngineState) (t : State) :
      FrameDraws (picture t) (picture (openFrame (setEngine e (takeSnapshot (raise .frame t))))) := ⟨rfl, fun _ => .inl rfl, id⟩
  rw [boundary_eq, picture_closeStep]
  exact count.trans ((blink _).trans ((scroll _).trans (applyDueChains_draws.trans (opened _ _))))

end

/-! ## Every command -/

section
variable {s : State}

/-- What a command may change, but for the reset of the part: by a reset command, or by a port write that its row does not stand for. -/
def Redraws (c : Instr) (s t : State) : Prop :=
  Draws c (restartHeld s) (picture s) (picture t) ∨
    (picture t = picture State.reset ∧ (c.wellFormed = true → resetCommand c = true))

theorem Redraws.of_eq {c : Instr} {t : State} (h : picture t = picture s) : Redraws c s t := .inl (.of_eq h)

/-- A command that acts in some states only. -/
theorem Redraws.ite {c : Instr} {b : Prop} [Decidable b] {t : State} (h : Redraws c s t) : Redraws c s (if b then t else s) := by
  split
  · exact h
  · exact .of_eq rfl

theorem redraws_portWrite {c : Instr} (address : PortAddress) (value : Byte)
    (h : address = 1 → value.getLsbD 1 = true → c.wellFormed = true → resetCommand c = true) :
    Redraws c s (portWrite address value s) :=
  (picture_portWrite s address value).imp .of_eq fun ⟨e, ha, hv⟩ => ⟨e, h ha hv⟩

theorem redraws_tickStep {c : Instr} (h : tickCommand c = true) : Redraws c s (tickStep s) := by
  obtain ⟨source, mode, e⟩ := picture_tickStep s
  refine .inl ?_
  rw [e]
  exact { Draws.refl c (restartHeld s) (picture s) with source := fun _ => .inr h, mode := fun _ => .inr h }

theorem redraws_boundary {c : Instr} (h : boundaryCommand c = true) : Redraws c s (boundary s) := .inl (boundary_draws.draws h _)

theorem redraws_request {c : Instr} {kind : Byte} (hc : requestCode c = some kind) : Redraws c s (effect c s) := by
  rw [effect_of_requestCode hc]
  exact .inl (execute_draws _ s fun payload t => requestBody_draws hc _ payload t)

theorem redraws_effect (c : Instr) (s : State) : Redraws c s (effect c s) := by
  cases c with
  | linkDataWrite value => exact redraws_portWrite 0 value nofun
  | linkDataRead => exact .of_eq (picture_readLinkData s)
  | linkStatusRead => exact .of_eq rfl
  | resync value =>
    refine redraws_portWrite 1 value fun _ hv hw => ?_
    have clear := (Bool.and_eq_true_iff.1 hw).2
    rw [hv] at clear
    cases clear
  | fullReset value => exact redraws_portWrite 1 value fun _ _ _ => rfl
  | noticeAcknowledge address value =>
    refine redraws_portWrite address value fun ha _ hw => ?_
    subst ha
    cases hw
  | noticeMask address value =>
    refine redraws_portWrite address value fun ha _ hw => ?_
    subst ha
    cases hw
  | ignoredPortWrite address value =>
    refine redraws_portWrite address value fun ha _ hw => ?_
    subst ha
    cases hw
  | byteTaken => exact .of_eq (picture_takingStep s)
  | gapTimeout => exact (redraws_tickStep rfl).ite
  | huntingEnd => exact (redraws_tickStep rfl).ite
  | posting => exact .inl (postingStep_draws s)
  | sleepEntry => exact .of_eq (picture_enterSleepIfReady s)
  | unknownKindRequest => exact .inl (execute_draws unknownKind s fun _ _ => trivial)
  | frameBoundary waited =>
    show Redraws _ s (if boundaryDue s then boundary (countWait waited s) else s)
    refine Redraws.ite ?_
    cases waited with
    | false => exact redraws_boundary rfl
    | true => exact .inl ((boundary_draws (s := countLateFrame s)).draws rfl _)
  | resumingBoundary => exact (redraws_boundary rfl).ite
  | rowScanOut =>
    show Redraws _ s (match dueRow s with
      | some r => scanRow r s
      | none => s)
    cases dueRow s <;> exact .of_eq rfl
  | tick => exact redraws_tickStep rfl
  | scanPass longGhosts => exact .of_eq (picture_scanPassStep s longGhosts)
  | repeatEvent longGhosts =>
    show Redraws _ s (if repeatRunsOut longGhosts s then scanPassStep longGhosts s else s)
    exact (Redraws.of_eq (picture_scanPassStep s longGhosts)).ite
  | alarmExpiry => exact (redraws_tickStep rfl).ite
  | linkWatchExpiry => exact (redraws_tickStep rfl).ite
  | wakeStep =>
    show Redraws _ s (if wakeStepDue s then closeStep (returnToRun (resumeEngine s)) else s)
    refine (Redraws.of_eq ?_).ite
    rw [picture_closeStep, picture_returnToRun, picture_resumeEngine]
  | endOfStarting => exact (Redraws.of_eq (picture_returnToRun s)).ite
  | powerOnReset => exact .inr ⟨rfl, fun _ => rfl⟩
  | rstPinReset low =>
    show Redraws _ s (rstChanges low s)
    unfold rstChanges
    split
    next h => exact .inr ⟨rfl, fun _ => (Bool.and_eq_true_iff.1 h).1⟩
    next => exact .of_eq rfl
  | watchedLineChange key closed => exact .of_eq (picture_contactChanges s key closed)
  | _ => exact redraws_request rfl

end

end Sys2Proof.Machine

namespace Sys2Proof.Proofs

open Sys2Proof.Machine

/-- Settles O50: what a command may write keeps the memories sound, and a reset clears them. -/
theorem memoriesStayGood : Obligations.MemoriesStayGood := by
  intro s t h hstep
  cases hp : s.pending with
  | nil =>
    rw [step_of_pending_nil hp] at hstep
    cases hstep
    exact h
  | cons c rest =>
    rw [step_of_pending_cons hp, exec_eq_effect] at hstep
    cases hstep
    have before : (picture (s.withPending rest)).sound := (memoriesGood_iff_sound s).1 h
    rw [memoriesGood_iff_sound]
    rcases redraws_effect c (s.withPending rest) with draws | ⟨reset, -⟩
    · exact draws.sound before
    · rw [reset]
      exact (memoriesGood_iff_sound _).1 resetMeetsTheInvariants.1

/-- Settles O58: every command is a writer of the picture stores that it changes. -/
theorem pictureStoresHaveTheirWriters : Obligations.PictureStoresHaveTheirWriters := by
  intro c s t hw hstep hr
  rw [exec_eq_effect] at hstep
  cases hstep
  rcases redraws_effect c s with h | ⟨-, reset⟩
  · refine ⟨h.pixels, h.attributes, h.cursor, h.step, h.staging, h.views, h.source, h.backdrop, h.panel, h.contrast, h.mode, h.frame,
      h.blinkPeriod, h.blink, h.lastMark, h.lastHandle, fun i hne => ?_⟩
    have move : SlotMove c (restartHeld s) s.chains.pool[i] (effect c s).chains.pool[i] := h.pool i
    generalize s.chains.pool[i] = before at move hne
    generalize (effect c s).chains.pool[i] = after at move hne
    cases move with
    | stays => exact absurd rfl hne
    | loads d hx hc =>
      cases before with
      | held => cases hx
      | _ => exact hc
    | frees hx hc =>
      cases before with
      | held => cases hx
      | free => exact absurd rfl hne
      | loaded => exact hc
    | holds handle d hc => exact ⟨hc, rfl⟩
    | leaves handle d hc hd => exact ⟨hc, hd⟩
    | returns handle d hc => exact ⟨rfl, hc⟩
  · exact absurd (reset hw) (by simp [hr])

end Sys2Proof.Proofs
end

section
/-! PROOFS. The statement about the two reading requests of the canvas (R36, R48, R51, R53). -/

namespace Sys2Proof.Machine

/-- R51, R53: the start and the count of a run, where column, row and count lie in their ranges and the run stays inside the canvas. -/
theorem readRunOf_eq (most : Nat) (c r n : Byte) :
    readRunOf most [c, r, n] =
      if c.toNat ≤ 31 ∧ r.toNat ≤ 127 ∧ 1 ≤ n.toNat ∧ n.toNat ≤ most ∧ r.toNat * 32 + c.toNat + n.toNat ≤ 4096 then
        some (r.toNat * 32 + c.toNat, n.toNat)
      else none := by
  have hn : byteAt [c, r, n] 2 = n := rfl
  unfold readRunOf
  rw [runStartOf_eq]
  by_cases hs : c.toNat ≤ 31 ∧ r.toNat ≤ 127
  · simp only [hn, hs.1, hs.2, true_and, Bool.and_eq_true, inRange_iff, runFits_iff, and_assoc]
    rfl
  · have hs' : ¬ (c.toNat ≤ 31 ∧ r.toNat ≤ 127 ∧ 1 ≤ n.toNat ∧ n.toNat ≤ most ∧ r.toNat * 32 + c.toNat + n.toNat ≤ 4096) :=
      fun h => hs ⟨h.1, h.2.1⟩
    simp only [if_neg hs, if_neg hs']

section
variable (c r n : Byte) (s : State)

theorem readCanvasBody_eq :
    readCanvasBody [c, r, n] s =
      if c.toNat ≤ 31 ∧ r.toNat ≤ 127 ∧ 1 ≤ n.toNat ∧ n.toNat ≤ 56 ∧ r.toNat * 32 + c.toNat + n.toNat ≤ 4096 then
        doneReading s (memReadRun s.canvas.pixels (r.toNat * 32 + c.toNat) n.toNat)
      else .fail .outOfRange [] := by
  unfold readCanvasBody
  rw [if_neg (by simp), readRunOf_eq]
  split_ifs
  · rfl
  · rfl

theorem readAttributesBody_eq :
    readAttributesBody [c, r, n] s =
      if c.toNat ≤ 31 ∧ r.toNat ≤ 127 ∧ 1 ≤ n.toNat ∧ n.toNat ≤ 58 ∧ r.toNat * 32 + c.toNat + n.toNat ≤ 4096 then
        doneReading s ((memReadRun s.canvas.attributes (r.toNat * 32 + c.toNat) n.toNat).map storedAttributes)
      else .fail .outOfRange [] := by
  unfold readAttributesBody
  rw [if_neg (by simp), readRunOf_eq]
  split_ifs
  · rfl
  · rfl

end

/-- R46: the run of the second plane as it is returned. -/
theorem memReadRun_map_storedAttributes (m : Memory) (start n : Nat) :
    (memReadRun m start n).map storedAttributes = (List.range n).map fun k => memRead m (start + k) &&& 0x07 := by
  rw [memReadRun, List.map_map]
  exact List.map_congr_left fun k _ => storedAttributes_eq _

/-- Only a list of three bytes has the size that the two requests take. -/
theorem length_ne_three {payload : List Byte} (h : ∀ c r n, payload ≠ [c, r, n]) : payload.length ≠ 3 :=
  fun hl => by
    obtain ⟨c, r, n, e⟩ := List.length_eq_three.1 hl
    exact h c r n e

end Sys2Proof.Machine

namespace Sys2Proof.Proofs

open Sys2Proof.Machine

/-- Settles O5: the two bodies at a payload of three bytes, by the fields; at any other size both are BAD_SIZE. -/
theorem canvasRunsAreRead : Obligations.CanvasRunsAreRead := by
  refine fun tag payload s => ⟨fun h => ?_, fun h => ?_⟩
  · split
    next c r n =>
      have hbody := readCanvasBody_eq c r n (beginExecution s)
      split
      next hok => exact exec_of_reading rfl h (hbody.trans (if_pos hok))
      next hbad => exact exec_of_outOfRange rfl h (hbody.trans (if_neg hbad))
    next hsize => exact exec_of_badSize rfl h (if_pos (length_ne_three hsize))
  · split
    next c r n =>
      have hbody := readAttributesBody_eq c r n (beginExecution s)
      rw [memReadRun_map_storedAttributes] at hbody
      split
      next hok => exact exec_of_reading rfl h (hbody.trans (if_pos hok))
      next hbad => exact exec_of_outOfRange rfl h (hbody.trans (if_neg hbad))
    next hsize => exact exec_of_badSize rfl h (if_pos (length_ne_three hsize))

end Sys2Proof.Proofs
end

section
/-! PROOFS. The statement about the scan-out of a row (R58, R81, R84, R93, R94). -/

namespace Sys2Proof.Machine

section
variable {s : State}

/-- R93: the row that is due. -/
theorem dueRow_eq_some {r : Nat} : dueRow s = some r ↔
    s.frames.row = some r ∧ (s.power.state = .run ∨ s.power.state = .sleepPending) ∧ s.panel.snapshot.mode ≠ .off ∧
      r < s.panel.rows.toNat := by
  unfold dueRow
  split
  next h => simp [h]
  next x h =>
    rw [Option.ite_none_right_eq_some, framesRun_iff]
    constructor
    · rintro ⟨hdue, e⟩
      cases e
      exact ⟨h, hdue⟩
    · rintro ⟨e, hdue⟩
      cases h.symm.trans e
      exact ⟨hdue, rfl⟩

theorem rowScanOut_of_due {r : Nat} (h : dueRow s = some r) : exec .rowScanOut s = .next (scanRow r s) := by
  simp only [exec, execRowScanOut, h]

/-- R93, R94: without a due row nothing changes. -/
theorem rowScanOut_of_not_due (h : ∀ r, s.frames.row = some r → (s.power.state = .run ∨ s.power.state = .sleepPending) →
    s.panel.snapshot.mode ≠ .off → ¬ r < s.panel.rows.toNat) : exec .rowScanOut s = .next s := by
  have notDue : dueRow s = none := Option.eq_none_iff_forall_ne_some.2 fun r e => by
    obtain ⟨hrow, runs, lit, hr⟩ := dueRow_eq_some.1 e
    exact h r hrow runs lit hr
  simp only [exec, execRowScanOut, notDue]

/-- R94: no boundary is taken where the Frame Sequencer stands still. -/
theorem boundaries_of_stopped (h : framesRun s.power.state = false) (waited : Bool) :
    exec (.frameBoundary waited) s = .next s ∧ exec .resumingBoundary s = .next s := by
  simp [exec, execFrameBoundary, execResumingBoundary, boundaryDue, resumingDue, h]

/-- R73, R84: the level of a configured segment, by the mode of the snapshot. -/
theorem segmentLevel_eq (hm : s.panel.snapshot.mode ≠ .off) (px py : Nat) :
    segmentLevel s px py =
      if s.panel.snapshot.mode = .test then .on
      else if s.panel.snapshot.mode = .showing ∧ composedValue s px py = true then .on
      else .off := by
  unfold segmentLevel levelOf
  cases h : s.panel.snapshot.mode with
  | off => exact absurd h hm
  | blank => rfl
  | test => rfl
  | showing => simp

theorem rowLevels_length (py : Nat) : (rowLevels s py).length = 160 := by
  simp [rowLevels, Config.segmentOutputs]

/-- R84: the level of each segment output: the unselected level beyond the configured columns. -/
theorem rowLevels_getElem? {px : Nat} (hx : px < 160) (py : Nat) :
    (rowLevels s py)[px]? = some (if s.panel.columns.toNat ≤ px then .unselected else segmentLevel s px py) := by
  have hx : px < Config.segmentOutputs := hx
  rw [rowLevels, List.getElem?_map, List.getElem?_range hx, Option.map_some]
  congr 1
  by_cases h : px < s.panel.columns.toNat
  · rw [if_pos h, if_neg (Nat.not_le.2 h)]
  · rw [if_neg h, if_pos (Nat.not_lt.1 h)]

end

end Sys2Proof.Machine

namespace Sys2Proof.Proofs

open Sys2Proof.Machine

/-- Settles O41: the due row with its levels; the three reasons why none is due; and the power states in which the Frame Sequencer stands still. -/
theorem rowIsScannedOut : Obligations.RowIsScannedOut := by
  refine fun s => ⟨fun r hrow runs hr lit => ?_, fun h => ?_, fun h waited => ?_⟩
  · refine ⟨rowLevels s r, rowScanOut_of_due (dueRow_eq_some.2 ⟨hrow, runs, lit, hr⟩), rowLevels_length r, fun px hx => ?_⟩
    rw [rowLevels_getElem? hx, segmentLevel_eq lit]
  · refine rowScanOut_of_not_due fun r hrow _ lit hr => ?_
    rcases h with off | closed | ⟨x, hx, past⟩
    · exact lit off
    · cases closed.symm.trans hrow
    · cases hx.symm.trans hrow
      omega
  · have stopped : framesRun s.power.state = false := by
      rcases h with h | h | h <;> rw [h] <;> rfl
    refine ⟨rowScanOut_of_not_due fun r _ runs => ?_, boundaries_of_stopped stopped waited⟩
    rw [(framesRun_iff _).2 runs] at stopped
    cases stopped

end Sys2Proof.Proofs
end

section
/-! PROOFS. The statement about the six descriptor actions (R64, R105 to R111): a rectangle is a list of distinct cells, each of which an action
visits once. -/

namespace Sys2Proof.Machine

/-! ## A rectangle as placed cells (R105) -/

section
variable {r : Rectangle}

/-- R105: an action visits no cell of a legal rectangle twice. -/
theorem rectangleCell_distinct (hr : r.legal) : distinctCells (rectangleCell r) (rectangleArea r) := by
  intro i hi j hj e
  obtain ⟨-, columnI⟩ := rectangleCell_offsets hr hi
  obtain ⟨-, columnJ⟩ := rectangleCell_offsets hr hj
  obtain ⟨-, -, columns, -⟩ := hr
  simp only [rectangleCell, cellIndex, Config.cellsPerRow] at e
  have quotient : i / r.width.toNat = j / r.width.toNat := by omega
  have remainder : i % r.width.toNat = j % r.width.toNat := by omega
  rw [← Nat.div_add_mod i r.width.toNat, ← Nat.div_add_mod j r.width.toNat, quotient, remainder]

/-- R105: the cell in row i and column j of a rectangle is the one visited after i whole rows and j cells. -/
theorem rectangleCell_at {i j : Nat} (hi : i < r.height.toNat) (hj : j < r.width.toNat) :
    i * r.width.toNat + j < rectangleArea r ∧
      rectangleCell r (i * r.width.toNat + j) = (r.row.toNat + i) * 32 + (r.column.toNat + j) := by
  constructor
  · calc i * r.width.toNat + j < i * r.width.toNat + r.width.toNat := Nat.add_lt_add_left hj _
      _ = (i + 1) * r.width.toNat := (Nat.succ_mul ..).symm
      _ ≤ r.height.toNat * r.width.toNat := Nat.mul_le_mul_right _ hi
      _ = rectangleArea r := Nat.mul_comm ..
  · rw [rectangleCell, cellIndex, Nat.mul_comm i, Nat.mul_add_div (by omega), Nat.mul_add_mod, Nat.div_eq_of_lt hj, Nat.mod_eq_of_lt hj]
    rfl

/-- R105: a cell that is none of the rectangle's rows and columns is not visited. -/
theorem ne_rectangleCell (hr : r.legal) {n : Nat}
    (hn : ∀ i j, i < r.height.toNat → j < r.width.toNat → n ≠ (r.row.toNat + i) * 32 + (r.column.toNat + j)) :
    ∀ k < rectangleArea r, n ≠ rectangleCell r k := by
  intro k hk
  obtain ⟨row, column⟩ := rectangleCell_offsets hr hk
  exact hn _ _ row column

/-- R106: as many bytes as a rectangle has cells, each with its cell. -/
theorem rectangleCells_zip {bytes : List Byte} (hl : bytes.length = rectangleArea r) :
    (rectangleCells r).zip bytes = placed (rectangleCell r) bytes := by
  rw [placed, rectangleCells_eq, hl]

/-- R107: one byte for every cell of a rectangle. -/
theorem rectangleCells_map_const (v : Byte) :
    ((rectangleCells r).map fun cell => (cell, v)) = placed (rectangleCell r) (List.replicate (rectangleArea r) v) := by
  rw [← rectangleCells_zip (List.length_replicate ..), rectangleCells_eq]
  apply List.ext_getElem <;> simp

end

/-- R49: what `CellsWritten` says of the cell in row i and column j of a rectangle, in the terms of the statement. -/
structure RectangleWritten (r : Rectangle) (mode : Byte → Byte) (byte : Nat → Nat → Byte) (c u : Canvas) : Prop where
  cursor : u.cursor = c.cursor
  step : u.step = c.step
  inside : ∀ i j, i < r.height.toNat → j < r.width.toNat →
    memRead u.pixels ((r.row.toNat + i) * 32 + (r.column.toNat + j)) = byte i j ∧
      memRead u.attributes ((r.row.toNat + i) * 32 + (r.column.toNat + j)) =
        mode (memRead c.attributes ((r.row.toNat + i) * 32 + (r.column.toNat + j)))
  outside : ∀ n, (∀ i j, i < r.height.toNat → j < r.width.toNat → n ≠ (r.row.toNat + i) * 32 + (r.column.toNat + j)) →
    memRead u.pixels n = memRead c.pixels n ∧ memRead u.attributes n = memRead c.attributes n

/-- R106, R107: bytes written to the cells of a rectangle in the order in which an action visits them. -/
theorem rectangleWritten_of_placed {r : Rectangle} {m : AttributeMode} {a : AttributeSet} {bytes : List Byte} {c : Canvas} (hr : r.legal)
    (hp : c.pixels.wf = true) (ha : c.attributes.wf = true) (hl : bytes.length = rectangleArea r) :
    RectangleWritten r (fun old => if m = .apply then attributesByte a else old)
      (fun i j => bytes.getD (i * r.width.toNat + j) 0) c (writeCells m a (placed (rectangleCell r) bytes) c) := by
  have written := writeCells_placed m a (cell := rectangleCell r) (bytes := bytes) hp ha (hl ▸ rectangleCell_distinct hr)
  refine ⟨written.cursor, written.step, fun i j hi hj => ?_, fun n hn => written.others n (hl ▸ ne_rectangleCell hr hn)⟩
  obtain ⟨hk, hcell⟩ := rectangleCell_at hi hj
  rw [← hl] at hk
  rw [← hcell]
  refine ⟨written.pixels _ hk, (written.attributes _ hk).trans ?_⟩
  cases m <;> rfl

/-! ## ATTRIBUTE (R108) -/

theorem memRead_changeCell {x y : AttributeSet} {m : Memory} (hm : m.wf = true) (cell n : Nat) :
    memRead (changeCell x y m cell) n =
      if n = cell then attributesByte (changeAttributes x y (attributesOf (memRead m n))) else memRead m n := by
  rw [changeCell, memRead_memWrite _ _ _ _ hm]
  by_cases h : n = cell
  · rw [if_pos h, if_pos h, h]
  · rw [if_neg h, if_neg h]

/-- R108: each of the listed cells has its set changed once, and every other cell keeps its set. -/
theorem memRead_changeCells {x y : AttributeSet} {cells : List Nat} (n : Nat) (hn : cells.Nodup) :
    ∀ {m : Memory}, m.wf = true → memRead (cells.foldl (changeCell x y) m) n =
      if n ∈ cells then attributesByte (changeAttributes x y (attributesOf (memRead m n))) else memRead m n := by
  induction cells with
  | nil => exact fun _ => rfl
  | cons cell cells ih =>
    intro m hm
    obtain ⟨hcell, hn⟩ := List.nodup_cons.1 hn
    have changed : (changeCell x y m cell).wf = true := memWrite_wf _ _ _ hm
    rw [List.foldl_cons, ih hn changed, memRead_changeCell hm]
    by_cases h : n = cell
    · subst h
      rw [if_neg hcell, if_pos rfl, if_pos (List.mem_cons_self ..)]
    · rw [if_neg h]
      simp only [List.mem_cons, h, false_or]

/-- R46, R108: the flags of a changed set: the set mask wins over the clear mask. -/
theorem changedAttributes_getLsbD (x y : AttributeSet) (old : Byte) {flag : Nat} (hf : flag < 8) :
    (attributesByte (changeAttributes x y (attributesOf old))).getLsbD flag =
      (decide (flag < 3) && (x.getLsbD flag || (old.getLsbD flag && !y.getLsbD flag))) := by
  simp only [attributesByte, changeAttributes, attributesOf, BitVec.getLsbD_setWidth, BitVec.getLsbD_or, BitVec.getLsbD_and,
    BitVec.getLsbD_not, BitVec.getLsbD_extractLsb', Nat.zero_add, hf, decide_true, Bool.true_and]
  by_cases h : flag < 3
  · simp [h]
  · simp [h, BitVec.getLsbD_of_ge _ _ (Nat.not_lt.1 h)]

theorem nodup_rectangleCells {r : Rectangle} (hr : r.legal) : (rectangleCells r).Nodup := by
  rw [rectangleCells_eq]
  exact List.Nodup.map_on (fun i hi j hj => rectangleCell_distinct hr i (List.mem_range.1 hi) j (List.mem_range.1 hj)) List.nodup_range

/-! ## The six actions -/

/-- R106: what a COPY reads of the staging memory. -/
theorem memReadRun_getD (m : Memory) (start : Nat) {n k : Nat} (hk : k < n) : (memReadRun m start n).getD k 0 = memRead m (start + k) := by
  simp [memReadRun, hk]

theorem applyCopy_written {offset : Word} {r : Rectangle} {m : AttributeMode} {a : AttributeSet} {s : State} (hr : r.legal)
    (hp : s.canvas.pixels.wf = true) (ha : s.canvas.attributes.wf = true) :
    ∃ canvas, applyAction (.copy offset r m a) s = { s with canvas := canvas } ∧
      RectangleWritten r (fun old => if m = .apply then attributesByte a else old)
        (fun i j => memRead s.staging (offset.toNat + i * r.width.toNat + j)) s.canvas canvas := by
  have hl : (memReadRun s.staging offset.toNat (rectangleArea r)).length = rectangleArea r := memReadRun_length ..
  have written := rectangleWritten_of_placed (m := m) (a := a) hr hp ha hl
  rw [← rectangleCells_zip hl] at written
  refine ⟨_, rfl, { written with inside := fun i j hi hj => ?_ }⟩
  obtain ⟨pixel, set⟩ := written.inside i j hi hj
  refine ⟨pixel.trans ?_, set⟩
  rw [memReadRun_getD _ _ (rectangleCell_at hi hj).1, Nat.add_assoc]

theorem applyFill_written {r : Rectangle} {pattern : Byte} {m : AttributeMode} {a : AttributeSet} {s : State} (hr : r.legal)
    (hp : s.canvas.pixels.wf = true) (ha : s.canvas.attributes.wf = true) :
    ∃ canvas, applyAction (.fill r pattern m a) s = { s with canvas := canvas } ∧
      RectangleWritten r (fun old => if m = .apply then attributesByte a else old) (fun _ _ => pattern) s.canvas canvas := by
  have written := rectangleWritten_of_placed (m := m) (a := a) (bytes := List.replicate (rectangleArea r) pattern) hr hp ha (by simp)
  rw [← rectangleCells_map_const] at written
  refine ⟨_, rfl, { written with inside := fun i j hi hj => ?_ }⟩
  obtain ⟨pixel, set⟩ := written.inside i j hi hj
  refine ⟨pixel.trans ?_, set⟩
  simp [(rectangleCell_at hi hj).1]

/-- R62: the pixel lies in the band. -/
theorem inBand_iff (v : ViewRecord) (x y : Byte) : v.inBand x y = true ↔
    (v.bandLeft.toNat ≤ x.toNat ∧ x.toNat ≤ v.bandRight.toNat) ∧ v.bandTop.toNat ≤ y.toNat ∧ y.toNat ≤ v.bandBottom.toNat := by
  simp only [ViewRecord.inBand, Bool.and_eq_true, decide_eq_true_eq, BitVec.le_def, and_assoc]

/-- R109: an ORIGIN is skipped exactly where its pixel lies outside the band. -/
theorem originSkipped_eq (t : ViewTable) (i : Fin 4) (x y : Byte) (s : State) :
    originSkipped t i x y s = !(s.views.table t)[i].record.inBand x y := rfl

end Sys2Proof.Machine

namespace Sys2Proof.Proofs

open Sys2Proof.Machine

/-- Settles O39: COPY and FILL write each cell of the rectangle once, ATTRIBUTE changes each once; ORIGIN by the band; the others as they are. -/
theorem chainActionsHaveTheirEffect : Obligations.ChainActionsHaveTheirEffect := by
  refine ⟨fun r m a x y offset pattern s hr hp ha => ⟨?_, ?_, ?_⟩, fun t i x y value enabled s => ⟨fun inside => ?_, fun outside => ?_,
    rfl, rfl, fun action hne => ?_⟩⟩
  · obtain ⟨canvas, e, written⟩ := applyCopy_written (offset := offset) (m := m) (a := a) hr hp ha
    exact ⟨canvas, e, written.cursor, written.step, written.inside, written.outside⟩
  · obtain ⟨canvas, e, written⟩ := applyFill_written (pattern := pattern) (m := m) (a := a) hr hp ha
    exact ⟨canvas, e, written.cursor, written.step, written.inside, written.outside⟩
  · have changed (n : Nat) := memRead_changeCells (x := x) (y := y) n (nodup_rectangleCells hr) ha
    refine ⟨_, rfl, fun i j hi hj flag hf => ?_, fun n hn => ?_⟩
    · obtain ⟨hk, hcell⟩ := rectangleCell_at hi hj
      rw [changed, if_pos (mem_rectangleCells.2 ⟨_, hk, hcell⟩)]
      exact changedAttributes_getLsbD x y _ hf
    · rw [changed, if_neg]
      intro hm
      obtain ⟨k, hk, e⟩ := mem_rectangleCells.1 hm
      exact ne_rectangleCell hr hn k hk e.symm
  · have kept : originSkipped t i x y s = false := by rw [originSkipped_eq, (inBand_iff ..).2 inside, Bool.not_true]
    exact ⟨kept, (if_neg (by simp [kept]) : applyOrigin t i x y s = _)⟩
  · have skipped : originSkipped t i x y s = true := by
      rw [originSkipped_eq, Bool.eq_false_iff.2 fun h => outside ((inBand_iff ..).1 h), Bool.not_false]
    exact ⟨skipped, (if_pos skipped : applyOrigin t i x y s = _)⟩
  · cases action with
    | origin t i x y => exact absurd rfl (hne t i x y)
    | _ => rfl

end Sys2Proof.Proofs
end

section
/-! PROOFS. Auto-scroll (R60, R62, R63, R74 to R76): the places of a band taken round, a scroll counter against its rate, and the statement about
one view. -/

namespace Sys2Proof.Machine

/-! ## The places of a band, taken round (R60, R71, R75) -/

/-- R71, R75: any distance from the first place, taken round the band, ends in the band. -/
theorem wrapped_within {lo hi : Nat} (h : lo ≤ hi) (n : Nat) : lo ≤ lo + n % (hi - lo + 1) ∧ lo + n % (hi - lo + 1) ≤ hi := by
  have inside : n % (hi - lo + 1) < hi - lo + 1 := Nat.mod_lt n (Nat.succ_pos _)
  omega

section
variable {lo hi place : Byte}

theorem wrappedByte_within (h : lo.toNat ≤ hi.toNat) (n : Nat) :
    lo.toNat ≤ (BitVec.ofNat 8 (lo.toNat + n % (hi.toNat - lo.toNat + 1))).toNat ∧
      (BitVec.ofNat 8 (lo.toNat + n % (hi.toNat - lo.toNat + 1))).toNat ≤ hi.toNat := by
  have inside := wrapped_within h n
  rwa [BitVec.toNat_ofNat, Nat.mod_eq_of_lt (by omega)]

/-- R75: the place after a place; the first follows the last. -/
theorem wrappedByte_next (h : lo.toNat ≤ place.toNat ∧ place.toNat ≤ hi.toNat) :
    BitVec.ofNat 8 (lo.toNat + (place.toNat - lo.toNat + 1) % (hi.toNat - lo.toNat + 1)) = if place = hi then lo else place + 1 := by
  split
  next e =>
    rw [e, Nat.mod_self, Nat.add_zero, BitVec.ofNat_toNat, BitVec.setWidth_eq]
  next e =>
    have below : place.toNat ≠ hi.toNat := fun he => e (BitVec.eq_of_toNat_eq he)
    rw [Nat.mod_eq_of_lt (by omega)]
    bv_omega

/-- R75: the place before a place; the last precedes the first. -/
theorem wrappedByte_previous (h : lo.toNat ≤ place.toNat ∧ place.toNat ≤ hi.toNat) :
    BitVec.ofNat 8 (lo.toNat + (place.toNat - lo.toNat + (hi.toNat - lo.toNat + 1) - 1) % (hi.toNat - lo.toNat + 1)) =
      if place = lo then hi else place - 1 := by
  split
  next e =>
    rw [e, Nat.mod_eq_of_lt (by omega)]
    bv_omega
  next e =>
    have above : place.toNat ≠ lo.toNat := fun he => e (BitVec.eq_of_toNat_eq he)
    have round : place.toNat - lo.toNat + (hi.toNat - lo.toNat + 1) - 1 = place.toNat - lo.toNat - 1 + (hi.toNat - lo.toNat + 1) := by
      omega
    rw [round, Nat.add_mod_right, Nat.mod_eq_of_lt (by omega)]
    bv_omega

end

/-! ## A scroll counter and its rate (R63, R74, R76) -/

/-- R74: a scroll counter after a boundary. -/
def scrolledCount (rate count : Byte) : Byte := if rate = 0 then count else if count + 1 = rate then 0 else count + 1

/-- R74: a coordinate of the origin after a boundary, where `moved` is one pixel on. -/
def scrolledPlace (rate count place moved : Byte) : Byte := if rate = 0 then place else if count + 1 = rate then moved else place

section
variable {rate count : Byte}

/-- R63, R76: a counter below its rate reaches it as a number where it reaches it as a byte. -/
theorem reaches_iff (h : countBelow count rate) (hr : rate ≠ 0) : count + 1 = rate ↔ count.toNat + 1 = rate.toNat := by
  rw [countBelow, if_neg hr] at h
  bv_omega

theorem scrolledPlace_eq (h : countBelow count rate) (place moved : Byte) :
    scrolledPlace rate count place moved = if rate ≠ 0 ∧ count.toNat + 1 = rate.toNat then moved else place := by
  unfold scrolledPlace
  by_cases hr : rate = 0
  · rw [if_pos hr, if_neg fun moves => moves.1 hr]
  · rw [if_neg hr]
    exact if_congr ((reaches_iff h hr).trans (and_iff_right hr).symm) rfl rfl

theorem scrolledCount_eq (h : countBelow count rate) :
    scrolledCount rate count = if rate = 0 ∨ (rate ≠ 0 ∧ count.toNat + 1 = rate.toNat) then 0 else count + 1 := by
  unfold scrolledCount
  by_cases hr : rate = 0
  · rw [countBelow, if_pos hr] at h
    rw [if_pos hr, if_pos (.inl hr), h]
  · rw [if_neg hr]
    exact if_congr ((reaches_iff h hr).trans ((or_iff_right hr).trans (and_iff_right hr)).symm) rfl rfl

/-- R76: a counter stays below its rate. -/
theorem countBelow_scrolledCount (h : countBelow count rate) : countBelow (scrolledCount rate count) rate := by
  unfold scrolledCount
  by_cases hr : rate = 0
  · rwa [if_pos hr]
  · rw [countBelow, if_neg hr] at h ⊢
    rw [if_neg hr]
    split <;> bv_omega

/-- R64: a cleared counter is below every rate. -/
theorem countBelow_zero (rate : Byte) : countBelow 0 rate := by
  unfold countBelow
  split
  · rfl
  next hr => bv_omega

end

/-! ## One view (R74, R75) -/

section
variable {v : ViewRecord}

/-- R62: the origin of a legal record lies in its band. -/
theorem ViewRecord.legal_band (h : v.legal = true) :
    (v.bandLeft.toNat ≤ v.originX.toNat ∧ v.originX.toNat ≤ v.bandRight.toNat) ∧
      v.bandTop.toNat ≤ v.originY.toNat ∧ v.originY.toNat ≤ v.bandBottom.toNat :=
  (inBand_iff ..).1 (Bool.and_eq_true_iff.1 h).2

theorem movedX_eq (h : v.legal = true) :
    movedX v =
      if v.horizontalDirection = .left then (if v.originX = v.bandRight then v.bandLeft else v.originX + 1)
      else (if v.originX = v.bandLeft then v.bandRight else v.originX - 1) := by
  obtain ⟨column, -⟩ := v.legal_band h
  unfold movedX
  cases v.horizontalDirection with
  | left => exact wrappedByte_next column
  | right => exact wrappedByte_previous column

theorem movedY_eq (h : v.legal = true) :
    movedY v =
      if v.verticalDirection = .up then (if v.originY = v.bandBottom then v.bandTop else v.originY + 1)
      else (if v.originY = v.bandTop then v.bandBottom else v.originY - 1) := by
  obtain ⟨-, row⟩ := v.legal_band h
  unfold movedY
  cases v.verticalDirection with
  | up => exact wrappedByte_next row
  | down => exact wrappedByte_previous row

end

theorem scrollVertical_eq (v : View) :
    scrollVertical v =
      { record := { v.record with
          originY := scrolledPlace v.record.verticalRate v.verticalCount v.record.originY (movedY v.record) }
        verticalCount := scrolledCount v.record.verticalRate v.verticalCount
        horizontalCount := v.horizontalCount } := by
  unfold scrollVertical scrolledPlace scrolledCount
  split
  · rfl
  · split <;> rfl

theorem scrollHorizontal_eq (v : View) :
    scrollHorizontal v =
      { record := { v.record with
          originX := scrolledPlace v.record.horizontalRate v.horizontalCount v.record.originX (movedX v.record) }
        verticalCount := v.verticalCount
        horizontalCount := scrolledCount v.record.horizontalRate v.horizontalCount } := by
  unfold scrollHorizontal scrolledPlace scrolledCount
  split
  · rfl
  · split <;> rfl

/-- R74: an enabled view scrolls on both axes, and neither depends on the other. -/
theorem scrollView_of_enabled {v : View} (h : v.record.enabled = true) :
    scrollView v =
      { record := { v.record with
          originY := scrolledPlace v.record.verticalRate v.verticalCount v.record.originY (movedY v.record)
          originX := scrolledPlace v.record.horizontalRate v.horizontalCount v.record.originX (movedX v.record) }
        verticalCount := scrolledCount v.record.verticalRate v.verticalCount
        horizontalCount := scrolledCount v.record.horizontalRate v.horizontalCount } := by
  rw [scrollView, if_pos h, scrollHorizontal_eq, scrollVertical_eq]
  rfl

end Sys2Proof.Machine

namespace Sys2Proof.Proofs

open Sys2Proof.Machine

/-- Settles O40: the counter of each axis against its rate, and the place one pixel on in the band. -/
theorem autoScrollMovesWithinTheBand : Obligations.AutoScrollMovesWithinTheBand := by
  intro v ⟨legal, vertical, horizontal⟩
  dsimp only
  split
  next enabled =>
    rw [scrollView_of_enabled enabled, scrolledPlace_eq vertical, scrolledPlace_eq horizontal, scrolledCount_eq vertical,
      scrolledCount_eq horizontal, movedX_eq legal, movedY_eq legal]
  next disabled => exact if_neg disabled

end Sys2Proof.Proofs
end

section
/-! PROOFS. The views stay legal with their scroll counters below their rates (R60, R62, R63, R76): through SET VIEW, the actions of a chain and
auto-scroll, and so through every step. -/

namespace Sys2Proof.Machine

/-! ## The good views of both tables (R63) -/

/-- R63: every view of both tables is good. -/
def Views.good (v : Views) : Prop := ∀ (t : ViewTable) (i : Fin 4), View.good (v.table t)[i]

theorem viewsGood_iff (s : State) : ViewsGood s ↔ s.views.good := Iff.rfl

theorem Views.good_iff (v : Views) : v.good ↔ (∀ i : Fin 4, View.good v.primary[i]) ∧ ∀ i : Fin 4, View.good v.fallback[i] := by
  refine ⟨fun h => ⟨h .primary, h .fallback⟩, fun ⟨primary, fallback⟩ t => ?_⟩
  cases t with
  | primary => exact primary
  | fallback => exact fallback

theorem Views.good.of_tables {v w : Views} (h : v.good) (primary : w.primary = v.primary) (fallback : w.fallback = v.fallback) :
    w.good := by
  rw [Views.good_iff, primary, fallback]
  exact v.good_iff.1 h

/-- A table with one view replaced. -/
theorem table_set_good {views : Vector View 4} {x : View} (h : ∀ j : Fin 4, View.good views[j]) (hx : x.good) (i j : Fin 4) :
    View.good (views.set i x)[j] := by
  rw [Fin.getElem_fin, Vector.getElem_set]
  split
  · exact hx
  · exact h j

theorem Views.good.setView {v : Views} {x : View} (h : v.good) (hx : x.good) (t : ViewTable) (i : Fin 4) : (v.setView t i x).good := by
  rw [Views.good_iff]
  cases t with
  | primary => exact ⟨table_set_good (h .primary) hx i, h .fallback⟩
  | fallback => exact ⟨h .primary, table_set_good (h .fallback) hx i⟩

/-! ## One view -/

/-- R62: a legal record stays legal where its origin moves inside its band. -/
theorem ViewRecord.legal_moved {v : ViewRecord} {x y : Byte} (h : v.legal = true) (inside : v.inBand x y = true) :
    ViewRecord.legal { v with originX := x, originY := y } = true :=
  Bool.and_eq_true_iff.2 ⟨(Bool.and_eq_true_iff.1 h).1, inside⟩

/-- R64: a legal record with both scroll counters 0. -/
theorem View.good_of_legal {v : ViewRecord} (h : v.legal = true) : View.good { record := v, verticalCount := 0, horizontalCount := 0 } :=
  ⟨h, countBelow_zero _, countBelow_zero _⟩

/-- R109: an ORIGIN inside the band. -/
theorem moveOrigin_good {v : View} {x y : Byte} (h : v.good) (inside : v.record.inBand x y = true) : (moveOrigin x y v).good :=
  View.good_of_legal (ViewRecord.legal_moved h.1 inside)

/-- R110: a VISIBILITY. -/
theorem showView_good {v : View} (h : v.good) (enabled : Bool) : (showView enabled v).good := h

theorem movedX_within {v : ViewRecord} (h : v.legal = true) :
    v.bandLeft.toNat ≤ (movedX v).toNat ∧ (movedX v).toNat ≤ v.bandRight.toNat := by
  obtain ⟨⟨left, right⟩, -⟩ := v.legal_band h
  unfold movedX
  cases v.horizontalDirection with
  | left => exact wrappedByte_within (left.trans right) _
  | right => exact wrappedByte_within (left.trans right) _

theorem movedY_within {v : ViewRecord} (h : v.legal = true) :
    v.bandTop.toNat ≤ (movedY v).toNat ∧ (movedY v).toNat ≤ v.bandBottom.toNat := by
  obtain ⟨-, top, bottom⟩ := v.legal_band h
  unfold movedY
  cases v.verticalDirection with
  | up => exact wrappedByte_within (top.trans bottom) _
  | down => exact wrappedByte_within (top.trans bottom) _

theorem scrolledPlace_within {lo hi : Nat} {rate count place moved : Byte} (hp : lo ≤ place.toNat ∧ place.toNat ≤ hi)
    (hm : lo ≤ moved.toNat ∧ moved.toNat ≤ hi) :
    lo ≤ (scrolledPlace rate count place moved).toNat ∧ (scrolledPlace rate count place moved).toNat ≤ hi := by
  unfold scrolledPlace
  split
  · exact hp
  · split
    · exact hm
    · exact hp

/-- R75, R76: auto-scroll keeps the origin in the band and the counters below their rates. -/
theorem scrollView_good {v : View} (h : v.good) : (scrollView v).good := by
  obtain ⟨legal, vertical, horizontal⟩ := h
  by_cases enabled : v.record.enabled = true
  · obtain ⟨column, row⟩ := v.record.legal_band legal
    rw [scrollView_of_enabled enabled]
    exact ⟨ViewRecord.legal_moved legal ((inBand_iff ..).2
        ⟨scrolledPlace_within column (movedX_within legal), scrolledPlace_within row (movedY_within legal)⟩),
      countBelow_scrolledCount vertical, countBelow_scrolledCount horizontal⟩
  · rw [scrollView, if_neg enabled]
    exact ⟨legal, vertical, horizontal⟩

/-! ## The boundary (R89) -/

section
variable {s : State}

theorem scrolledTable_good {views : Vector View 4} (h : ∀ j : Fin 4, View.good views[j]) (i : Fin 4) :
    View.good (Vector.ofFn fun j : Fin 4 => scrollView views[j])[i] := by
  rw [Fin.getElem_fin, Vector.getElem_ofFn]
  exact scrollView_good (h i)

theorem autoScroll_good (h : s.views.good) : (autoScroll s).views.good :=
  (Views.good_iff _).2 ⟨scrolledTable_good (h .primary), scrolledTable_good (h .fallback)⟩

/-- R109, R110: an ORIGIN that is not skipped and a VISIBILITY leave a good view; no other action touches the views. -/
theorem applyAction_good (a : Action) (h : s.views.good) : (applyAction a s).views.good := by
  cases a with
  | origin t i x y =>
    show (applyOrigin t i x y s).views.good
    unfold applyOrigin
    split
    · exact h
    next kept =>
      rw [originSkipped_eq, Bool.not_eq_true, Bool.not_eq_false'] at kept
      exact h.setView (moveOrigin_good (h t i) kept) t i
  | visibility t i enabled => exact h.setView (showView_good (h t i) enabled) t i
  | _ => exact h

theorem runActions_good (actions : List Action) (h : s.views.good) : (runActions actions s).views.good := by
  induction actions generalizing s with
  | nil => exact h
  | cons a rest ih => exact ih (applyAction_good a h)

/-- R119: the end of an application touches no view. -/
theorem applyChain_good (c : PendingChain) (h : s.views.good) : (applyChain c s).views.good := runActions_good _ h

theorem applyDueChains_good (h : s.views.good) : (applyDueChains s).views.good := by
  have chains (cs : List PendingChain) : ∀ t : State, t.views.good → (cs.foldl (fun t c => applyChain c t) t).views.good := by
    induction cs with
    | nil => exact fun _ ht => ht
    | cons c rest ih => exact fun t ht => ih _ (applyChain_good c ht)
  unfold applyDueChains
  dsimp only
  split
  · exact chains _ s h
  · exact chains _ s h

/-- R89: of the nine steps, auto-scroll and the due chains change the views. -/
theorem boundary_good (h : s.views.good) : (boundary s).views.good := by
  have closed (t : State) : (closeStep t).views = t.views := congrArg Picture.views (picture_closeStep t)
  have blink (t : State) : (advanceBlink t).views = t.views := by
    unfold advanceBlink
    split <;> rfl
  have opened (e : EngineState) (t : State) : (openFrame (setEngine e (takeSnapshot (raise .frame t)))).views = t.views := rfl
  rw [boundary_eq, closed, boundarySteps, opened]
  refine applyDueChains_good (autoScroll_good ?_)
  rw [blink]
  exact h

/-! ## SET VIEW (R65) -/

theorem setViewBody_good {payload : List Byte} {t : State} {result : List Byte} {post : PostEffect} (h : s.views.good)
    (hd : setViewBody payload s = .done t result post) : t.views.good := by
  unfold setViewBody at hd
  split at hd
  · cases hd
  · split at hd
    · split at hd
      next accepted =>
        cases hd
        exact h.setView (View.good_of_legal (Bool.and_eq_true_iff.1 accepted).2) _ _
      next => cases hd
    · cases hd

theorem execute_setView_good (accepts : Byte → Bool) (h : s.views.good) : (execute accepts setViewBody s).views.good := by
  rcases execute_cases accepts setViewBody s with e | ⟨slot, -, -, e⟩
  · rwa [e]
  · rw [e]
    cases hv : setViewBody slot.payload (beginExecution s) with
    | fail code result => exact h
    | done after result post =>
      show after.views.good
      exact setViewBody_good (s := beginExecution s) h hv

/-! ## Every command -/

theorem boundaryCommand_good {c : Instr} (hc : boundaryCommand c = true) (h : s.views.good) : (effect c s).views.good := by
  cases c with
  | frameBoundary waited =>
    show (if boundaryDue s then boundary (countWait waited s) else s).views.good
    split
    · refine boundary_good ?_
      cases waited <;> exact h
    · exact h
  | resumingBoundary =>
    show (if resumingDue s then boundary s else s).views.good
    split
    · exact boundary_good h
    · exact h
  | _ => cases hc

/-- R101: SET VIEW and the boundaries are the writers of the view tables, and a reset gives them their defaults. -/
theorem effect_views_good (c : Instr) (h : s.views.good) : (effect c s).views.good := by
  rcases redraws_effect c s with draws | ⟨reset, -⟩
  · by_cases same : (effect c s).views.primary = s.views.primary ∧ (effect c s).views.fallback = s.views.fallback
    · exact h.of_tables same.1 same.2
    · rcases draws.views (not_and_or.1 same) with rfl | hc
      · exact execute_setView_good _ h
      · exact boundaryCommand_good hc h
  · obtain ⟨-, -, defaults, -⟩ := Proofs.resetMeetsTheInvariants
    have views : (effect c s).views = State.reset.views := congrArg Picture.views reset
    rw [views]
    exact defaults

end

end Sys2Proof.Machine

namespace Sys2Proof.Proofs

open Sys2Proof.Machine

/-- Settles O52: the views stay good through every command, and taking the command off the queue does not touch them. -/
theorem viewsStayGood : Obligations.ViewsStayGood := by
  intro s t h hstep
  cases hp : s.pending with
  | nil =>
    rw [step_of_pending_nil hp] at hstep
    cases hstep
    exact h
  | cons c rest =>
    rw [step_of_pending_cons hp, exec_eq_effect] at hstep
    cases hstep
    exact effect_views_good c ((viewsGood_iff s).1 h)

end Sys2Proof.Proofs
end

section
/-! PROOFS. The statement about the composed value of a panel pixel (R69 to R73): the covering view, the canvas place that it shows, and the value
shown. -/

namespace Sys2Proof.Machine

/-! ## The covering view (R69, R70) -/

/-- R70: the view is enabled and its panel rectangle contains the pixel. -/
theorem enabledCovers_iff (v : ViewRecord) (px py : Nat) : (v.enabled && v.covers px py) = true ↔
    v.enabled = true ∧ (v.left.toNat ≤ px ∧ px < v.left.toNat + v.width.toNat) ∧
      v.top.toNat ≤ py ∧ py < v.top.toNat + v.height.toNat := by
  simp only [ViewRecord.covers, Bool.and_eq_true, decide_eq_true_eq, and_assoc]

section
variable {p : Snapshot} {px py : Nat}

theorem shownTable_of_primary (h : p.source = .primary) : p.shownTable = p.primary := by
  rw [Snapshot.shownTable, h]

theorem shownTable_of_fallback (h : p.source = .fallback) : p.shownTable = p.fallback := by
  rw [Snapshot.shownTable, h]

theorem coveringView_eq_none (h : ∀ i : Fin 4, ¬ (p.shownTable[i].enabled && p.shownTable[i].covers px py) = true) :
    coveringView p px py = none := by
  refine List.find?_eq_none.2 fun v hv => ?_
  obtain ⟨i, hi, rfl⟩ := Vector.mem_iff_getElem.1 (Vector.mem_toList_iff.1 hv)
  exact h ⟨i, hi⟩

theorem coveringView_eq_some {i : Fin 4} (h : (p.shownTable[i].enabled && p.shownTable[i].covers px py) = true)
    (lowest : ∀ j : Fin 4, j < i → ¬ (p.shownTable[j].enabled && p.shownTable[j].covers px py) = true) :
    coveringView p px py = some p.shownTable[i] := by
  refine List.find?_eq_some_iff_getElem.2 ⟨h, i, by simp, by simp, fun j hj => ?_⟩
  rw [Vector.getElem_toList, Bool.not_eq_true']
  exact Bool.eq_false_iff.2 (lowest ⟨j, hj.trans i.isLt⟩ hj)

end

/-! ## The canvas place (R71) -/

/-- R71: from the origin, a distance on and round the band: some whole turns back from there. -/
theorem wrapped_turns {lo origin : Nat} (h : lo ≤ origin) (distance size : Nat) :
    lo + (origin - lo + distance) % size + (origin - lo + distance) / size * size = origin + distance := by
  have whole := Nat.mod_add_div' (origin - lo + distance) size
  omega

/-! ## The value shown (R46, R72) -/

theorem attributesOf_getLsbD (b : Byte) {i : Nat} (h : i < 3) : (attributesOf b).getLsbD i = b.getLsbD i := by
  simp [attributesOf, h]

/-- R72: Blink and Dim blank the pixel that Inverse and View Inverse have inverted. -/
theorem shownValue_attributesOf (pixel : Bool) (flags : Byte) (inverse : Bool) (phase : BlinkPhase) (counter : Word) :
    shownValue pixel (attributesOf flags) inverse phase (counter.getLsbD 0) =
      if flags.getLsbD 0 = true ∧ phase = .hidden then false
      else if flags.getLsbD 2 = true ∧ counter.toNat % 2 = 1 then false
      else (pixel ^^ flags.getLsbD 1) ^^ inverse := by
  have odd : counter.getLsbD 0 = decide (counter.toNat % 2 = 1) := by
    rw [BitVec.getLsbD, Nat.testBit_zero]
  simp only [shownValue, attributesOf_getLsbD, Nat.reduceLT, odd, Bool.and_eq_true, beq_iff_eq, decide_eq_true_eq, Bool.bne_eq_xor]

section
variable {s : State} {px py : Nat}

theorem composedValue_of_uncovered (h : coveringView s.panel.snapshot px py = none) :
    composedValue s px py = s.panel.snapshot.backdrop := by
  simp only [composedValue, h]

theorem composedValue_of_covered {v : ViewRecord} (h : coveringView s.panel.snapshot px py = some v) :
    composedValue s px py =
      shownValue (canvasPixel s.canvas (canvasColumn v px) (canvasRow v py))
        (cellAttributes s.canvas (cellIndex (canvasColumn v px / 8) (canvasRow v py))) v.inverse
        s.panel.snapshot.phase (s.frames.counter.getLsbD 0) := by
  simp only [composedValue, h]

end

end Sys2Proof.Machine

namespace Sys2Proof.Proofs

open Sys2Proof.Machine

/-- Settles O42: the covering view is found or not; where it is, the place is wrapped in its band and the value shown is that of the flags. -/
theorem pixelIsComposed : Obligations.PixelIsComposed := by
  intro px py s p view covers
  have view_eq (i : Fin 4) : view i = p.shownTable[i] := by
    dsimp only [view]
    split
    next source => rw [shownTable_of_primary source]
    next source => rw [shownTable_of_fallback source]
  have covers_iff (i : Fin 4) : (p.shownTable[i].enabled && p.shownTable[i].covers px py) = true ↔ covers i := by
    rw [enabledCovers_iff, ← view_eq]
  refine ⟨fun none => ?_, fun i hi lowest legal => ?_⟩
  · exact composedValue_of_uncovered (coveringView_eq_none fun i => (covers_iff i).not.2 (none i))
  · have found := coveringView_eq_some ((covers_iff i).2 hi) fun j hj => (covers_iff j).not.2 (lowest j hj)
    rw [← view_eq] at found
    obtain ⟨⟨left, right⟩, top, bottom⟩ := (view i).legal_band legal
    exact ⟨canvasColumn (view i) px, canvasRow (view i) py, ⟨_, wrapped_turns left _ _⟩, ⟨_, wrapped_turns top _ _⟩,
      wrapped_within (left.trans right) _, wrapped_within (top.trans bottom) _,
      (composedValue_of_covered found).trans (shownValue_attributesOf ..)⟩

end Sys2Proof.Proofs
end

section
/-! PROOFS. The statement about the records that read back as written (R61, R62, R66, R102, R104): each field is read from the byte that it was
written as. -/

namespace Sys2Proof.Machine

/-! ## Fields read from the byte that they were written as -/

theorem wordAt_wordBytes (w : Word) (rest : List Byte) : wordAt (wordBytes w ++ rest) 0 = w := by
  show highByte w ++ lowByte w = w
  apply BitVec.eq_of_toNat_eq
  rw [append_toNat]
  simp only [highByte, lowByte, BitVec.extractLsb'_toNat, Nat.shiftRight_eq_div_pow]
  omega

theorem attributesOf_attributesByte (a : AttributeSet) : attributesOf (attributesByte a) = a := by
  revert a; decide

theorem attributeModeOf_attributeModeByte (m : AttributeMode) : attributeModeOf (attributeModeByte m) = some m := by
  cases m <;> rfl

theorem tableOf_tableByte (t : ViewTable) : tableOf (tableByte t) = some t := by
  cases t <;> rfl

theorem viewIndexOf_ofNat (i : Fin 4) : viewIndexOf (BitVec.ofNat 8 i.val) = some i := by
  revert i; decide

theorem nextOf_nextByte (n : Option (Fin 32)) : nextOf (nextByte n) = some n := by
  revert n; decide

theorem flagBit_zero_getLsbD (b : Bool) : (flagBit b 0).getLsbD 0 = b := by
  cases b <;> rfl

/-! ## Descriptors (R102, R104) -/

/-- R102, R104: an action that LOAD DESCRIPTOR accepts is read from its code and its eight parameter bytes. -/
theorem actionOf_actionParameters {a : Action} (h : a.legal) : actionOf (actionCode a) (actionParameters a) = some a := by
  cases a with
  | copy offset r m a =>
    obtain ⟨fits, inside⟩ := h
    have word : wordAt (actionParameters (.copy offset r m a)) 0 = offset := wordAt_wordBytes offset _
    have rectangle : rectangleAt (actionParameters (.copy offset r m a)) 2 = some r :=
      rectangleAt_of_fits (q := actionParameters (.copy offset r m a)) (i := 2) fits
    have mode : attributeModeOf (byteAt (actionParameters (.copy offset r m a)) 6) = some m := attributeModeOf_attributeModeByte m
    have attributes : attributesOf (byteAt (actionParameters (.copy offset r m a)) 7) = a := attributesOf_attributesByte a
    have area : 1 ≤ rectangleArea r := Nat.mul_pos fits.1 fits.2.1
    show copyOf (actionParameters (.copy offset r m a)) = _
    simp only [copyOf, word, rectangle, mode, attributes]
    rw [if_pos (by omega), if_pos inside]
  | fill r pattern m a =>
    have rectangle : rectangleAt (actionParameters (.fill r pattern m a)) 0 = some r :=
      rectangleAt_of_fits (q := actionParameters (.fill r pattern m a)) (i := 0) h
    have mode : attributeModeOf (byteAt (actionParameters (.fill r pattern m a)) 5) = some m := attributeModeOf_attributeModeByte m
    have attributes : attributesOf (byteAt (actionParameters (.fill r pattern m a)) 6) = a := attributesOf_attributesByte a
    show fillOf (actionParameters (.fill r pattern m a)) = _
    simp only [fillOf, rectangle, mode, attributes]
    rfl
  | attributes r set clear =>
    have rectangle : rectangleAt (actionParameters (.attributes r set clear)) 0 = some r :=
      rectangleAt_of_fits (q := actionParameters (.attributes r set clear)) (i := 0) h
    have setMask : attributesOf (byteAt (actionParameters (.attributes r set clear)) 4) = set := attributesOf_attributesByte set
    have clearMask : attributesOf (byteAt (actionParameters (.attributes r set clear)) 5) = clear := attributesOf_attributesByte clear
    show attributeOf (actionParameters (.attributes r set clear)) = _
    simp only [attributeOf, rectangle, setMask, clearMask, Option.map_some]
  | origin t i x y =>
    have table : tableOf (byteAt (actionParameters (.origin t i x y)) 0) = some t := tableOf_tableByte t
    have index : viewIndexOf (byteAt (actionParameters (.origin t i x y)) 1) = some i := viewIndexOf_ofNat i
    show originOf (actionParameters (.origin t i x y)) = _
    simp only [originOf, table, index]
    exact if_pos ((inRange_iff 0 127 y).2 ⟨Nat.zero_le _, h⟩)
  | visibility t i enabled =>
    have table : tableOf (byteAt (actionParameters (.visibility t i enabled)) 0) = some t := tableOf_tableByte t
    have index : viewIndexOf (byteAt (actionParameters (.visibility t i enabled)) 1) = some i := viewIndexOf_ofNat i
    show visibilityOf (actionParameters (.visibility t i enabled)) = _
    simp only [visibilityOf, table, index]
    cases enabled <;> rfl
  | mark value => rfl

/-- R102, R104: a descriptor is read from the bytes that READ DESCRIPTOR returns of it. -/
theorem descriptorOf_descriptorBytes (slot : Byte) {d : Descriptor} (h : d.action.legal) :
    descriptorOf (slot :: descriptorBytes d) = some d := by
  have next : nextOf (byteAt (slot :: descriptorBytes d) 2) = some d.next := nextOf_nextByte d.next
  have action : actionOf (byteAt (slot :: descriptorBytes d) 1) ((slot :: descriptorBytes d).drop 4) = some d.action :=
    actionOf_actionParameters h
  have release : (byteAt (slot :: descriptorBytes d) 3).getLsbD 0 = d.release := flagBit_zero_getLsbD d.release
  simp only [descriptorOf, next, action, release]

/-! ## View records (R61, R62) -/

/-- R61: a view record is read from its fifteen bytes. -/
theorem viewRecordAt_viewRecordBytes (table index : Byte) (v : ViewRecord) :
    viewRecordAt (table :: index :: viewRecordBytes v) 2 = v := by
  have flags (e i : Bool) : (flagBit e 0 ||| flagBit i 1).getLsbD 0 = e ∧ (flagBit e 0 ||| flagBit i 1).getLsbD 1 = i := by
    cases e <;> cases i <;> decide
  have vertical (d : VerticalDirection) : (if verticalByte d = 0 then VerticalDirection.up else .down) = d := by
    cases d <;> rfl
  have horizontal (d : HorizontalDirection) : (if horizontalByte d = 0 then HorizontalDirection.left else .right) = d := by
    cases d <;> rfl
  obtain ⟨enabled, inverse⟩ := flags v.enabled v.inverse
  calc viewRecordAt (table :: index :: viewRecordBytes v) 2
      = { v with
          enabled := (flagBit v.enabled 0 ||| flagBit v.inverse 1).getLsbD 0
          inverse := (flagBit v.enabled 0 ||| flagBit v.inverse 1).getLsbD 1
          verticalDirection := if verticalByte v.verticalDirection = 0 then .up else .down
          horizontalDirection := if horizontalByte v.horizontalDirection = 0 then .left else .right } := rfl
    _ = v := by rw [enabled, inverse, vertical, horizontal]

/-- R62: the bytes of a legal record are accepted. -/
theorem viewRecordAccepted_viewRecordBytes (table index : Byte) {v : ViewRecord} (h : v.legal = true) :
    viewRecordAccepted (table :: index :: viewRecordBytes v) 2 = true := by
  have vertical : isBit (byteAt (table :: index :: viewRecordBytes v) 14) = true := by
    show isBit (verticalByte v.verticalDirection) = true
    cases v.verticalDirection <;> rfl
  have horizontal : isBit (byteAt (table :: index :: viewRecordBytes v) 16) = true := by
    show isBit (horizontalByte v.horizontalDirection) = true
    cases v.horizontalDirection <;> rfl
  simp only [viewRecordAccepted, viewRecordAt_viewRecordBytes, vertical, horizontal, h, Bool.and_self]

end Sys2Proof.Machine

namespace Sys2Proof.Proofs

open Sys2Proof.Machine

/-- Settles O60: a descriptor by its action, its Next and its flag; a view record field by field. -/
theorem recordsReadBackAsWritten : Obligations.RecordsReadBackAsWritten :=
  ⟨fun slot _ legal => descriptorOf_descriptorBytes slot legal, fun table index v legal =>
    ⟨viewRecordAt_viewRecordBytes table index v, viewRecordAccepted_viewRecordBytes table index legal⟩⟩

end Sys2Proof.Proofs
end

section
/-! PROOFS. The statement about the panel requests (R36, R80, R81, R83, R86). -/

namespace Sys2Proof.Machine

theorem countOfEights_iff (lo hi : Nat) (b : Byte) :
    countOfEights lo hi b = true ↔ lo ≤ b.toNat ∧ b.toNat ≤ hi ∧ b.toNat % 8 = 0 := by
  rw [countOfEights, Bool.and_eq_true, inRange_iff, decide_eq_true_iff, and_assoc]

/-- R80: the range stage of CONFIGURE PANEL. -/
theorem panelFieldsOk_iff (c r f : Byte) :
    panelFieldsOk [c, r, f] = true ↔
      (32 ≤ c.toNat ∧ c.toNat ≤ 160 ∧ c.toNat % 8 = 0) ∧ (16 ≤ r.toNat ∧ r.toNat ≤ 64 ∧ r.toNat % 8 = 0) ∧
        40 ≤ f.toNat ∧ f.toNat ≤ 125 := by
  simp only [panelFieldsOk, Bool.and_eq_true, countOfEights_iff, inRange_iff, and_assoc]
  rfl

section
variable (s : State)

theorem configurePanelBody_eq (c r f : Byte) :
    configurePanelBody [c, r, f] s =
      if (32 ≤ c.toNat ∧ c.toNat ≤ 160 ∧ c.toNat % 8 = 0) ∧ (16 ≤ r.toNat ∧ r.toNat ≤ 64 ∧ r.toNat % 8 = 0) ∧
          40 ≤ f.toNat ∧ f.toNat ≤ 125 then
        if s.panel.mode = .off ∧ s.panel.snapshot.mode = .off then
          doneWith { s with panel := { s.panel with columns := c, rows := r, frameRate := f } }
        else .fail .wrongState []
      else .fail .outOfRange [] := by
  have off : (s.panel.mode = .off ∧ s.panel.snapshot.mode = .off) ↔ ¬ (s.panel.mode ≠ .off ∨ s.panel.snapshot.mode ≠ .off) := by
    rw [not_or, not_not, not_not]
  unfold configurePanelBody
  simp only [← panelFieldsOk_iff, off, ite_not, Bool.not_eq_true']
  cases panelFieldsOk [c, r, f] <;> rfl

theorem setContrastBody_eq (v : Byte) :
    setContrastBody [v] s =
      if v.toNat ≤ 31 then doneWith { s with panel := { s.panel with contrast := v } } else .fail .outOfRange [] := by
  have field : v.toNat ≤ 31 ↔ inRange 0 31 v = true := by rw [inRange_iff, and_iff_right (Nat.zero_le _)]
  simp only [field]
  rfl

theorem setBlinkBody_eq (n : Byte) :
    setBlinkBody [n] s =
      if 2 ≤ n.toNat then
        doneWith { s with frames := { s.frames with blinkPeriod := n, blinkCount := 0, blinkPhase := .shown } }
      else .fail .outOfRange [] := by
  have field : 2 ≤ n.toNat ↔ inRange 2 255 n = true := by
    rw [inRange_iff, and_iff_left (Nat.le_of_lt_succ n.isLt)]
  simp only [field]
  rfl

theorem setDisplayModeBody_of_mode {m : Byte} {mode : DisplayMode} (h : displayModeOf m = some mode) :
    setDisplayModeBody [m] s = doneWith { s with panel := { s.panel with mode := mode } } := by
  have h : displayModeOf (byteAt [m] 0) = some mode := h
  simp [setDisplayModeBody, h]

theorem setDisplayModeBody_of_no_mode {m : Byte} (h : displayModeOf m = none) :
    setDisplayModeBody [m] s = .fail .outOfRange [] := by
  have h : displayModeOf (byteAt [m] 0) = none := h
  simp [setDisplayModeBody, h]

end

/-- Only a list of one byte has the size that these requests take. -/
theorem length_ne_one {payload : List Byte} (h : ∀ b, payload ≠ [b]) : payload.length ≠ 1 :=
  fun hl => by
    obtain ⟨b, e⟩ := List.length_eq_one_iff.1 hl
    exact h b e

end Sys2Proof.Machine

namespace Sys2Proof.Proofs

open Sys2Proof.Machine

/-- Settles O3: each request at a payload of its size by its fields, and BAD_SIZE at any other. -/
theorem panelRequestsAnswer : Obligations.PanelRequestsAnswer := by
  refine fun tag payload s => ⟨fun h => ?_, fun h => ?_, fun h => ?_, fun h => ?_⟩
  · split
    next c r f =>
      have hbody := configurePanelBody_eq (beginExecution s) c r f
      split
      next legal =>
        rw [if_pos legal] at hbody
        split
        next off => exact exec_of_done rfl h (hbody.trans (if_pos off)) rfl rfl
        next on => exact exec_of_fail .wrongState rfl h (hbody.trans (if_neg on))
      next bad => exact exec_of_outOfRange rfl h (hbody.trans (if_neg bad))
    next size => exact exec_of_badSize rfl h (if_pos (length_ne_three size))
  · split
    next m =>
      have done {mode : DisplayMode} (hm : displayModeOf m = some mode) :
          exec .setDisplayMode s = .next { answeredOnly 0x11 tag 0 [] s with panel := { s.panel with mode := mode } } :=
        exec_of_done rfl h (setDisplayModeBody_of_mode (beginExecution s) hm) rfl rfl
      have code {b : Byte} (hb : m.toNat = b.toNat) : m = b := BitVec.eq_of_toNat_eq hb
      split
      next h0 => exact done (code (b := 0) h0 ▸ rfl)
      next h1 => exact done (code (b := 1) h1 ▸ rfl)
      next h2 => exact done (code (b := 2) h2 ▸ rfl)
      next h3 => exact done (code (b := 3) h3 ▸ rfl)
      next h0 h1 h2 h3 =>
        have none : displayModeOf m = none := by
          unfold displayModeOf
          rw [if_neg (ne_of_apply_ne BitVec.toNat h0), if_neg (ne_of_apply_ne BitVec.toNat h1),
            if_neg (ne_of_apply_ne BitVec.toNat h2), if_neg (ne_of_apply_ne BitVec.toNat h3)]
        exact exec_of_outOfRange rfl h (setDisplayModeBody_of_no_mode _ none)
    next size => exact exec_of_badSize rfl h (if_pos (length_ne_one size))
  · split
    next v =>
      have hbody := setContrastBody_eq (beginExecution s) v
      split
      next legal => exact exec_of_done rfl h (hbody.trans (if_pos legal)) rfl rfl
      next bad => exact exec_of_outOfRange rfl h (hbody.trans (if_neg bad))
    next size => exact exec_of_badSize rfl h (if_pos (length_ne_one size))
  · split
    next n =>
      have hbody := setBlinkBody_eq (beginExecution s) n
      split
      next legal => exact exec_of_done rfl h (hbody.trans (if_pos legal)) rfl rfl
      next bad => exact exec_of_outOfRange rfl h (hbody.trans (if_neg bad))
    next size => exact exec_of_badSize rfl h (if_pos (length_ne_one size))

end Sys2Proof.Proofs
end

section
/-! PROOFS. The statement about the frame boundary (R85, R87 to R92, R95): the nine steps as one state, of which the end of the step of a settled state
takes nothing back, and where each of the two boundaries is due. -/

namespace Sys2Proof.Machine

section
variable {s : State}

/-! ## The nine steps (R89) -/

/-- R85: the blink state after a boundary. -/
theorem advanceBlink_eq (s : State) :
    advanceBlink s =
      { s with frames := { s.frames with
          blinkCount := if s.frames.blinkCount + 1 = s.frames.blinkPeriod then 0 else s.frames.blinkCount + 1
          blinkPhase :=
            if s.frames.blinkCount + 1 = s.frames.blinkPeriod then
              if s.frames.blinkPhase = .shown then .hidden else .shown
            else s.frames.blinkPhase } } := by
  have other : s.frames.blinkPhase.other = if s.frames.blinkPhase = .shown then .hidden else .shown := by
    cases s.frames.blinkPhase <;> rfl
  unfold advanceBlink
  rw [other]
  split <;> rfl

/-- R89, steps 2 to 5: the engine Suspended, the counter, the blink state and both view tables one frame on. -/
def advancedFrame (s : State) : State := autoScroll (advanceBlink (countFrame (setEngine .suspended s)))

/-- R89, steps 7 to 9: FRAME, the snapshot, the engine back in this state, and the new frame. -/
def openedFrame (left : EngineState) (s : State) : State := openFrame (setEngine left (takeSnapshot (raise .frame s)))

theorem boundarySteps_eq (s : State) : boundarySteps s = openedFrame s.requests.engine (applyDueChains (advancedFrame s)) := rfl

/-- R32, R177: whether a step has more to do at its end can be read off the port, the queue and the power state. -/
theorem settled_of_portView {s t : State} (h : Settled s) (e : portView t = portView s) : Settled t := by
  simp only [portView, Prod.mk.injEq] at e
  obtain ⟨holding, ring, assembler, requests, power, -⟩ := e
  unfold Settled rejectionDue frontRejection sleepReady
  rw [holding, ring, assembler, requests, power]
  exact h

theorem portView_boundarySteps (s : State) : portView (boundarySteps s) = portView s := by
  rw [← portView_beyondFrame, beyondFrame_boundarySteps, portView_beyondFrame]

/-- R89: a boundary of a settled state is its nine steps. -/
theorem boundary_of_settled (h : Settled s) : boundary s = openedFrame s.requests.engine (applyDueChains (advancedFrame s)) := by
  rw [boundary_eq, closeStep_of_settled _ (settled_of_portView h (portView_boundarySteps s)), boundarySteps_eq]

/-- R43, R90: a boundary that waited counts as late. -/
theorem countWait_eq (waited : Bool) (s : State) :
    countWait waited s =
      { s with counters := { s.counters with
          lateFrame := if waited then counted s.counters.lateFrame else s.counters.lateFrame } } := by
  cases waited with
  | false => rfl
  | true =>
    show countLateFrame s = _
    unfold countLateFrame
    rw [saturate_eq_counted]
    rfl

/-! ## Where the two boundaries are due (R88, R95) -/

/-- R88: a row of the open frame is still to be scanned. -/
theorem dueRow_eq_none (runs : s.power.state = .run ∨ s.power.state = .sleepPending) :
    dueRow s = none ↔ ¬ (s.panel.snapshot.mode ≠ .off ∧ ∃ r, s.frames.row = some r ∧ r < s.panel.rows.toNat) := by
  simp only [Option.eq_none_iff_forall_ne_some, ne_eq, dueRow_eq_some, runs, true_and]
  exact ⟨fun h ⟨lit, r, hrow, hr⟩ => h r ⟨hrow, lit, hr⟩, fun h r ⟨hrow, lit, hr⟩ => h ⟨lit, r, hrow, hr⟩⟩

theorem boundaryDue_iff (runs : s.power.state = .run ∨ s.power.state = .sleepPending) : boundaryDue s = true ↔
    s.frames.resuming = false ∧ ¬ (s.panel.snapshot.mode ≠ .off ∧ ∃ r, s.frames.row = some r ∧ r < s.panel.rows.toNat) := by
  rw [← dueRow_eq_none runs, boundaryDue, (framesRun_iff _).2 runs, Bool.true_and, Bool.and_eq_true, Bool.not_eq_true',
    Option.isNone_iff_eq_none]

theorem resumingDue_iff (runs : s.power.state = .run ∨ s.power.state = .sleepPending) :
    resumingDue s = true ↔ s.frames.resuming = true := by
  rw [resumingDue, (framesRun_iff _).2 runs, Bool.true_and]

theorem exec_frameBoundary (waited : Bool) (s : State) :
    exec (.frameBoundary waited) s = .next (if boundaryDue s then boundary (countWait waited s) else s) := rfl

theorem exec_resumingBoundary (s : State) : exec .resumingBoundary s = .next (if resumingDue s then boundary s else s) := rfl

end

end Sys2Proof.Machine

namespace Sys2Proof.Proofs

open Sys2Proof.Machine

/-- Settles O37: by which boundary is due; the nine steps are those of the model with the blink state and the late frame counted written out. -/
theorem boundaryRunsItsNineSteps : Obligations.BoundaryRunsItsNineSteps := by
  intro waited s settled runs rowOwed wraps advanced opened late
  have atOpening (t : State) : openedFrame s.requests.engine t = opened t := rfl
  have onTime : advancedFrame s = advanced s.counters.lateFrame := by
    rw [advancedFrame, advanceBlink_eq]
    rfl
  have afterWait : advancedFrame (countWait waited s) = advanced late := by
    rw [advancedFrame, advanceBlink_eq, countWait_eq]
    rfl
  refine ⟨fun ordinary noRow => ?_, fun resuming => ?_, fun notDue => ?_, fun ordinary => ?_⟩
  · have waiting : Settled (countWait waited s) := by
      rw [countWait_eq]
      exact settled_of_portView settled rfl
    have engine : (countWait waited s).requests.engine = s.requests.engine := by rw [countWait_eq]
    rw [exec_frameBoundary, if_pos ((boundaryDue_iff runs).2 ⟨ordinary, noRow⟩), boundary_of_settled waiting, engine, afterWait,
      atOpening]
  · rw [exec_resumingBoundary, if_pos ((resumingDue_iff runs).2 resuming), boundary_of_settled settled, onTime, atOpening]
  · rw [exec_frameBoundary, if_neg]
    rw [boundaryDue_iff runs]
    exact fun ⟨ordinary, noRow⟩ => notDue.elim (by simp [ordinary]) noRow
  · rw [exec_resumingBoundary, if_neg]
    rw [resumingDue_iff runs]
    simp [ordinary]

end Sys2Proof.Proofs
end

section
/-! PROOFS. The scan configuration, the pass timer, the alarm and the link watch stay in their ranges (R128, R129, R131, R166 to R169, R180, R182):
they are one view of the state, and each part of a step that changes it keeps it good. -/

namespace Sys2Proof.Machine

/-! ## The numbers and their ranges -/

/-- R128: every number of a scan configuration lies in its range. -/
structure ScanConfig.good (c : ScanConfig) : Prop where
  drives : 1 ≤ c.drives ∧ c.drives ≤ 10
  senses : 1 ≤ c.senses ∧ c.senses ≤ 6
  period : 2 ≤ c.period ∧ c.period ≤ 32
  settle : 1 ≤ c.settle ∧ c.settle ≤ 7
  repeatDelay : 10 ≤ c.repeatDelay ∧ c.repeatDelay ≤ 255
  repeatInterval : 2 ≤ c.repeatInterval ∧ c.repeatInterval ≤ 255

/-- R166: the alarm count runs exactly while the alarm is set. -/
structure Timebase.alarmGood (t : Timebase) : Prop where
  off : t.alarmMode = .off → t.alarmCount = 0 ∧ t.alarmPeriod = 0
  on : t.alarmMode ≠ .off → t.alarmCount ≠ 0 ∧ t.alarmCount ≤ t.alarmPeriod

/-- R168, R169: the watch count runs exactly while the watch does. -/
structure Timebase.watchGood (t : Timebase) : Prop where
  period : t.watchPeriod.toNat ≤ 64
  on : watchRuns t = true → t.watchCount ≠ 0 ∧ t.watchCount.toNat ≤ t.watchPeriod.toNat * 100
  off : watchRuns t = false → t.watchCount = 0

/-- The scan configuration, the pass timer and the timebase. -/
structure Timers where
  config : ScanConfig
  passTimer : Nat
  time : Timebase

/-- The timers of a state. -/
def timers (s : State) : Timers where
  config := s.scanner.config
  passTimer := s.scanner.passTimer
  time := s.time

/-- R128, R131, R166, R168, R169: every one of these numbers lies in its range. -/
structure Timers.good (v : Timers) : Prop where
  config : v.config.good
  passTimer : v.passTimer ≤ 32
  alarm : v.time.alarmGood
  watch : v.time.watchGood

/-! ## The scan passes and the key table leave the timers (R127, R133) -/

section
variable (k : Fin 64) (s : State)

theorem timers_setKeyState (st : KeyState) : timers (setKeyState k st s) = timers s := rfl

theorem timers_becomeDown : timers (becomeDown k s) = timers s := rfl

theorem timers_clearOwnerIf : timers (clearOwnerIf k s) = timers s := by
  unfold clearOwnerIf
  split <;> rfl

theorem timers_endRollover : timers (endRollover s) = timers s := by
  unfold endRollover
  split <;> rfl

theorem timers_offer (kind : EventKind) (key : Byte) (time : Word) : timers (offer kind key time s) = timers s := by
  rw [offer_eq]
  split <;> rfl

theorem timers_readOpen : timers (readOpen k s) = timers s := by
  rw [readOpen_eq]
  rfl

theorem timers_pressTransition : timers (pressTransition k s) = timers s := by
  unfold pressTransition
  split
  · unfold suppressGhost
    dsimp only
    split
    · rfl
    · rw [timers_offer]
      rfl
  split
  · unfold suppressRollover
    dsimp only
    split
    · rfl
    · rw [timers_offer]
      rfl
  · unfold offerPress
    split
    · rw [timers_becomeDown, timers_offer]
    · rw [timers_setKeyState, timers_offer]

theorem timers_readClosed : timers (readClosed k s) = timers s := by
  have settle (n : Nat) : timers (settleDown k n s) = timers s := by
    unfold settleDown
    split
    · exact timers_pressTransition k s
    · rfl
  unfold readClosed
  split
  · exact settle _
  · exact settle _
  · rfl
  · rfl
  · rfl

/-- A reading of every key in turn. -/
theorem timers_foldl {f : State → Fin 64 → State} (hf : ∀ t k, timers (f t k) = timers t) (keys : List (Fin 64)) :
    timers (keys.foldl f s) = timers s := by
  induction keys generalizing s with
  | nil => rfl
  | cons k keys ih => exact (ih (f s k)).trans (hf s k)

theorem timers_passToRelease (longGhosts : KeySet) : timers (passToRelease longGhosts s) = timers s := by
  have ghost (t : State) : timers (ghostCheck t) = timers t := by
    unfold ghostCheck
    split <;> rfl
  have release (t : State) : timers (releaseSide t) = timers t := by
    refine timers_foldl _ (fun u k => ?_) _
    split
    · exact timers_readOpen k u
    · rfl
  rw [passToRelease, release, ghost]
  rfl

theorem timers_pressSide : timers (pressSide s) = timers s := by
  refine timers_foldl _ (fun t k => ?_) _
  split
  · exact timers_readClosed k t
  · rfl

theorem timers_serveRepeat (before after : State) : timers (serveRepeat before after) = timers after := by
  unfold serveRepeat
  split
  · rfl
  · split
    · rw [← timers_offer after .repeated _ after.time.ticks]
      rfl
    · rfl

/-- R133: a scan pass. -/
theorem timers_scanPassStep (longGhosts : KeySet) : timers (scanPassStep longGhosts s) = timers s := by
  unfold scanPassStep
  split
  · rw [runPass, timers_serveRepeat, timers_pressSide, timers_passToRelease]
    rfl
  · rfl

/-- R127: SET KEY. -/
theorem timers_setKey (r : KeyRecord) : timers (setKey k r s) = timers s := by
  have stop (t : State) : timers (stopRepeatIf k r t) = timers t := by
    unfold stopRepeatIf
    split <;> rfl
  have disable (t : State) : timers (disableKey k t) = timers t := by
    unfold disableKey
    split
    · rw [timers_endRollover, timers_clearOwnerIf]
      rfl
    · rfl
  have change (before after : Bool) (t : State) : timers (changeEnabled k before after t) = timers t := by
    unfold changeEnabled
    split
    · rfl
    · exact disable t
    · rfl
    · rfl
  rw [setKey, stop, change]
  rfl

/-! ## What else leaves the timers -/

@[simp] theorem timers_closeStep : timers (closeStep s) = timers s := by
  rw [closeStep_eq]
  have rejected : timers (withReject s) = timers s := by
    rw [withReject_requests]
    rfl
  rw [← rejected]
  unfold sleptIfQuiet
  split <;> rfl

theorem timers_enterSleepIfReady : timers (enterSleepIfReady s) = timers s := by
  rw [enterSleepIfReady_eq]
  unfold sleptIfQuiet
  split <;> rfl

theorem timers_resumeEngine : timers (resumeEngine s) = timers s := by
  unfold resumeEngine
  split <;> rfl

theorem timers_contactChanges (closed : Bool) : timers (contactChanges k closed s) = timers s := by
  obtain ⟨contacts, armed, due, e⟩ := contactChanges_eq k closed s
  rw [e]
  rfl

theorem timers_beyondFrame : timers (beyondFrame s) = timers s := rfl

/-- R89: a boundary. -/
theorem timers_boundary : timers (boundary s) = timers s := by
  rw [boundary_eq, timers_closeStep, ← timers_beyondFrame, beyondFrame_boundarySteps, timers_beyondFrame]

theorem timers_readLinkData : timers (readLinkData s) = timers s := by
  unfold readLinkData
  split
  · rfl
  · exact timers_closeStep _

/-- R3, R25, R181: a write to a port address leaves the timers or resets the part. -/
theorem timers_portWrite (address : PortAddress) (value : Byte) :
    timers (portWrite address value s) = timers s ∨ timers (portWrite address value s) = timers State.reset := by
  have linkData : timers (writeLinkData value s) = timers s := by
    unfold writeLinkData holdByte
    split
    · rfl
    · split
      · dsimp only
        split <;> rfl
      · rfl
  have resync : timers (resyncLink s) = timers s := by
    unfold resyncLink
    split
    · rfl
    · exact timers_closeStep _
  have control : timers (writeLinkControl value s) = timers s ∨ timers (writeLinkControl value s) = timers State.reset := by
    unfold writeLinkControl fullResetPart
    split
    · split
      · exact .inl rfl
      · exact .inr rfl
    · split
      · exact .inl resync
      · exact .inl rfl
  unfold portWrite
  split
  · exact control
  · refine .inl ?_
    split
    · rfl
    · split
      · exact linkData
      · split_ifs <;> rfl

end

/-! ## The restart of the watch (R168, R169, R180) -/

section
variable {t : Timebase} {s : State}

theorem watchRuns_iff : watchRuns t = true ↔ t.watchPeriod ≠ 0 ∧ t.link = .live := by
  simp [watchRuns]

/-- R168: the load of a watch with a period in its range is not 0 and fits the count. -/
theorem watchLoad_bounds {period : Byte} (h : period.toNat ≤ 64) (hp : period ≠ 0) :
    BitVec.ofNat 16 (period.toNat * 100) ≠ 0 ∧ (BitVec.ofNat 16 (period.toNat * 100)).toNat ≤ period.toNat * 100 := by
  have positive : period.toNat ≠ 0 := fun e => hp (BitVec.eq_of_toNat_eq e)
  have load : (BitVec.ofNat 16 (period.toNat * 100)).toNat = period.toNat * 100 := by
    rw [BitVec.toNat_ofNat]
    omega
  refine ⟨fun e => ?_, load.le⟩
  have zero : period.toNat * 100 = 0 := load.symm.trans (congrArg BitVec.toNat e)
  omega

/-- R168, R169: a restart of a watch whose count is 0 while it does not run. -/
theorem loadWatch_good (alarm : s.time.alarmGood) (period : s.time.watchPeriod.toNat ≤ 64)
    (off : watchRuns s.time = false → s.time.watchCount = 0) :
    (loadWatch s).time.alarmGood ∧ (loadWatch s).time.watchGood := by
  unfold loadWatch
  split
  next runs =>
    have runs' : watchRuns s.time = true := watchRuns_iff.2 runs
    exact ⟨⟨alarm.off, alarm.on⟩, period, fun _ => watchLoad_bounds period runs.1, fun stopped => absurd (runs'.symm.trans stopped) nofun⟩
  next stopped => exact ⟨alarm, period, fun runs => absurd (watchRuns_iff.1 runs) stopped, off⟩

theorem loadWatch_scanner (s : State) : (loadWatch s).scanner = s.scanner := by
  rw [loadWatch_eq]

theorem loadWatch_timed (config : s.scanner.config.good) (passTimer : s.scanner.passTimer ≤ 32) (alarm : s.time.alarmGood)
    (period : s.time.watchPeriod.toNat ≤ 64) (off : watchRuns s.time = false → s.time.watchCount = 0) :
    (timers (loadWatch s)).good := by
  obtain ⟨alarm, watch⟩ := loadWatch_good alarm period off
  rw [← loadWatch_scanner s] at config passTimer
  exact ⟨config, passTimer, alarm, watch⟩

/-- R16, R169: a completed Good parcel; a watch that then does not run did not run before. -/
theorem goodParcel_timed (h : (timers s).good) : (timers (goodParcel s)).good := by
  refine loadWatch_timed h.config h.passTimer ⟨h.alarm.off, h.alarm.on⟩ h.watch.period fun stopped => h.watch.off ?_
  have unset : s.time.watchPeriod = 0 := by simpa [watchRuns] using stopped
  simp [timers, watchRuns, unset]

/-- R168: SET LINK WATCH with a period in its range. -/
theorem setWatch_timed (h : (timers s).good) {period : Byte} (hp : period.toNat ≤ 64) (action : FallbackAction) :
    (timers (setWatch period action s)).good :=
  loadWatch_timed h.config h.passTimer ⟨h.alarm.off, h.alarm.on⟩ hp fun _ => rfl

/-- R180: the timebase after a return to Run, which restarts the watch after Sleep. -/
theorem returnToRun_time (s : State) : (returnToRun s).time = s.time ∨ (returnToRun s).time = (loadWatch s).time := by
  rw [returnToRun_eq, loadWatch_eq]
  dsimp only
  split
  next asleep => exact .inr (if_pos asleep.2).symm
  next => exact .inl rfl

/-- R180: a return to Run also loads the pass timer. -/
theorem returnToRun_timed (h : (timers s).good) : (timers (returnToRun s)).good := by
  have timebase : (returnToRun s).time.alarmGood ∧ (returnToRun s).time.watchGood := by
    rcases returnToRun_time s with e | e
    · rw [e]
      exact ⟨h.alarm, h.watch⟩
    · rw [e]
      exact loadWatch_good h.alarm h.watch.period h.watch.off
  have scanner : (returnToRun s).scanner.config.good ∧ (returnToRun s).scanner.passTimer ≤ 32 := by
    rw [returnToRun_eq]
    exact ⟨h.config, h.config.period.2⟩
  exact ⟨scanner.1, scanner.2, timebase.1, timebase.2⟩

/-! ## The tick (R131, R164, R167, R169) -/

/-- A count that has not yet come to 1 goes on. -/
theorem count_sub_one {count : Word} (h0 : count ≠ 0) (h1 : count ≠ 1) : count - 1 ≠ 0 ∧ count - 1 ≤ count := by
  bv_omega

theorem serveGap_timed (h : (timers s).good) : (timers (serveGap s)).good := by
  unfold serveGap
  split
  · exact h
  · split <;> exact h
  · split <;> exact h

theorem servePassTimer_timed (h : (timers s).good) : (timers (servePassTimer s)).good := by
  unfold servePassTimer
  split
  · split
    · exact ⟨h.config, h.config.period.2, h.alarm, h.watch⟩
    · exact ⟨h.config, (Nat.sub_le _ _).trans h.passTimer, h.alarm, h.watch⟩
  · exact h

/-- R167: an expired alarm is reloaded, or Off. -/
theorem expiredAlarm_good (h : t.alarmGood) : (expiredAlarm t).alarmGood := by
  unfold expiredAlarm
  split
  next periodic =>
    have on := h.on (by simp [periodic])
    have period : t.alarmPeriod ≠ 0 := fun e => on.1 (by have := on.2; rw [e] at this; bv_omega)
    exact ⟨fun off => absurd (periodic.symm.trans off) nofun, fun _ => ⟨period, BitVec.le_refl _⟩⟩
  next => exact ⟨fun _ => ⟨rfl, rfl⟩, fun on => absurd rfl on⟩
  next => exact h

theorem expiredAlarm_watch (h : t.watchGood) : (expiredAlarm t).watchGood := by
  unfold expiredAlarm
  split
  · exact ⟨h.period, h.on, h.off⟩
  · exact ⟨h.period, h.on, h.off⟩
  · exact h

theorem serveAlarm_timed (h : (timers s).good) : (timers (serveAlarm s)).good := by
  unfold serveAlarm
  split
  · exact h
  next set =>
    split
    · have expired : (timers (raise .alarm { s with time := expiredAlarm s.time })).good :=
        ⟨h.config, h.passTimer, expiredAlarm_good h.alarm, expiredAlarm_watch h.watch⟩
      unfold alarmExpires
      dsimp only
      split
      · exact returnToRun_timed expired
      · exact expired
    next goesOn =>
      have on := h.alarm.on set
      have left := count_sub_one on.1 fun e => goesOn (by simp [alarmRunsOut, set, show s.time.alarmCount = 1 from e])
      exact ⟨h.config, h.passTimer, ⟨fun off => absurd off set, fun _ => ⟨left.1, BitVec.le_trans left.2 on.2⟩⟩,
        ⟨h.watch.period, h.watch.on, h.watch.off⟩⟩

theorem serveWatch_timed (h : (timers s).good) : (timers (serveWatch s)).good := by
  unfold serveWatch
  split
  next runs =>
    split
    · have lost : (timers { s with time := { s.time with watchCount := 0, link := .lost } }).good :=
        ⟨h.config, h.passTimer, ⟨h.alarm.off, h.alarm.on⟩, h.watch.period,
          fun runs => absurd (watchRuns_iff.1 runs).2 nofun, fun _ => rfl⟩
      unfold watchExpires
      cases s.time.watchAction <;> exact lost
    next goesOn =>
      have on := h.watch.on runs
      have left := count_sub_one on.1 goesOn
      exact ⟨h.config, h.passTimer, ⟨h.alarm.off, h.alarm.on⟩, h.watch.period,
        fun _ => ⟨left.1, (BitVec.le_def.1 left.2).trans on.2⟩, fun stopped => absurd (runs.symm.trans stopped) nofun⟩
  next => exact h

theorem tickStep_timed (h : (timers s).good) : (timers (tickStep s)).good := by
  have advanced : (timers (advanceTick s)).good :=
    ⟨h.config, h.passTimer, ⟨h.alarm.off, h.alarm.on⟩, h.watch.period, h.watch.on, h.watch.off⟩
  unfold tickStep
  split
  · rw [timers_closeStep]
    exact serveWatch_timed (serveAlarm_timed (servePassTimer_timed (serveGap_timed advanced)))
  · exact h

/-! ## The taking of a byte and the posting (R7, R16, R33, R182) -/

theorem takingStep_timed (h : (timers s).good) : (timers (takingStep s)).good := by
  have complete (sum : Byte) (damaged : Bool) (u : State) (hu : (timers u).good) : (timers (completeParcel sum damaged u)).good := by
    unfold completeParcel
    split
    · exact hu
    · split
      · exact goodParcel_timed hu
      · exact hu
  have length (preMark : Bool) (b : Byte) (u : State) (hu : (timers u).good) : (timers (takeLength preMark b u)).good := by
    unfold takeLength abandonSleep
    split
    · split <;> exact hu
    · exact hu
  unfold takingStep
  split
  · exact h
  next b _ =>
    split
    · rw [timers_closeStep]
      unfold handleByte
      split
      · exact length _ b _ h
      · unfold takeCollecting
        split
        · exact complete _ _ _ h
        · exact h
      · exact h
    · exact h

/-- R171, R182: the warm reset gives the timebase its defaults and leaves the scanner's configuration and pass timer. -/
theorem warmReset_timed (h : (timers s).good) : (timers (warmReset s)).good :=
  ⟨h.config, h.passTimer, ⟨fun _ => ⟨rfl, rfl⟩, fun on => absurd rfl on⟩, Nat.zero_le _, nofun, fun _ => rfl⟩

theorem postingStep_timed (h : (timers s).good) : (timers (postingStep s)).good := by
  unfold postingStep
  split
  next a _ =>
    rw [timers_closeStep]
    cases a.effect with
    | nothing => exact h
    | warmReset => exact warmReset_timed (s := postBytes a s) h
    | enterDoze =>
      show (timers (enterLowPower .doze (postBytes a s))).good
      rw [enterLowPower_eq]
      exact h
    | enterSleep => exact h
  next => exact h

end

end Sys2Proof.Machine
end

section
/-! PROOFS. The configured numbers stay in their ranges, and the counts of alarm and watch run exactly while they are on (R79, R80, R81, R85, R86, R128,
R129, R166, R168, R169): through the requests that write them, and so through every step. -/

namespace Sys2Proof.Machine

/-! ## An invariant through an execution step (R30, R36, R37) -/

/-- What the verdict on a request leaves satisfies the claim: a failure leaves the state alone. -/
def Verdict.leaves (P : State → Prop) : Verdict → Prop
  | .fail _ _ => True
  | .done after _ _ => P after

section
variable {P : State → Prop}

theorem leaves_ite {b : Prop} [Decidable b] {v w : Verdict} (hv : b → v.leaves P) (hw : ¬ b → w.leaves P) :
    (if b then v else w).leaves P := by
  split
  · exact hv ‹_›
  · exact hw ‹_›

/-- R36: a check that fails leaves the state alone. -/
theorem leaves_checked {b : Prop} [Decidable b] {code : OutcomeCode} {result : List Byte} {v : Verdict} (h : ¬ b → v.leaves P) :
    (if b then .fail code result else v : Verdict).leaves P := leaves_ite (fun _ => trivial) h

/-- R36: a check that passes, before the effect is made. -/
theorem leaves_passed {b : Prop} [Decidable b] {code : OutcomeCode} {result : List Byte} {v : Verdict} (h : b → v.leaves P) :
    (if b then v else .fail code result : Verdict).leaves P := leaves_ite h fun _ => trivial

/-- R30: a claim that does not read the queue and the engine goes through an execution step where it goes through the effect of its request. -/
theorem execute_leaves (hq : ∀ s q, P s → P { s with requests := q }) (accepts : Byte → Bool) {body : List Byte → State → Verdict}
    (hb : ∀ payload t, P t → (body payload t).leaves P) {s : State} (h : P s) : P (execute accepts body s) := by
  rcases execute_cases accepts body s with e | ⟨slot, -, -, e⟩
  · rwa [e]
  · rw [e]
    have begun : P (beginExecution s) := hq s _ h
    have left := hb slot.payload _ begun
    cases hv : body slot.payload (beginExecution s) with
    | fail code result => exact hq _ _ begun
    | done after result effect =>
      rw [hv] at left
      exact hq _ _ left

end

/-! ## The timers through the requests -/

section
variable {s : State}

/-- R128, R129: the configuration that CONFIGURE SCAN accepts. -/
theorem scanConfigOf_good {payload : List Byte} {c : ScanConfig} (h : scanConfigOf payload = some c) : c.good := by
  unfold scanConfigOf at h
  split at h
  next fields =>
    cases h
    simp only [Bool.and_eq_true, inRange_iff] at fields
    obtain ⟨⟨⟨⟨⟨drives, senses⟩, period⟩, settle⟩, delay⟩, interval⟩ := fields
    exact ⟨drives, senses, period, settle, delay, interval⟩
  next => cases h

theorem configureScanBody_timed (payload : List Byte) (h : (timers s).good) :
    (configureScanBody payload s).leaves fun t => (timers t).good := by
  refine leaves_checked fun _ => ?_
  split
  next config hc =>
    obtain ⟨armed, e⟩ := configureScan_eq s config
    have good := scanConfigOf_good hc
    rw [e]
    exact ⟨good, good.period.2, h.alarm, h.watch⟩
  next => trivial

theorem setKeyBody_timed (payload : List Byte) (h : (timers s).good) :
    (setKeyBody payload s).leaves fun t => (timers t).good := by
  refine leaves_checked fun _ => ?_
  split
  next k _ =>
    show (timers (setKey k _ s)).good
    rwa [timers_setKey]
  next => trivial

/-- R166: the alarm as SET ALARM sets it, with a period that is not 0 unless it is Off. -/
theorem withAlarm_good {mode : AlarmMode} {period : Word} (hp : mode ≠ .off → period ≠ 0) (wakes : Bool) (t : Timebase) :
    (withAlarm mode period wakes t).alarmGood := by
  cases mode with
  | off => exact ⟨fun _ => ⟨rfl, rfl⟩, fun on => absurd rfl on⟩
  | oneShot => exact ⟨nofun, fun on => ⟨hp on, BitVec.le_refl _⟩⟩
  | periodic => exact ⟨nofun, fun on => ⟨hp on, BitVec.le_refl _⟩⟩

theorem withAlarm_watch {t : Timebase} (h : t.watchGood) (mode : AlarmMode) (period : Word) (wakes : Bool) :
    (withAlarm mode period wakes t).watchGood := by
  obtain ⟨count, p, e⟩ := withAlarm_eq mode period wakes t
  rw [e]
  exact ⟨h.period, h.on, h.off⟩

theorem setAlarmBody_timed (payload : List Byte) (h : (timers s).good) :
    (setAlarmBody payload s).leaves fun t => (timers t).good := by
  refine leaves_checked fun _ => ?_
  split
  · trivial
  · exact leaves_checked fun legal =>
      ⟨h.config, h.passTimer, withAlarm_good (fun on zero => legal ⟨on, zero⟩) _ _, withAlarm_watch h.watch ..⟩

theorem setLinkWatchBody_timed (payload : List Byte) (h : (timers s).good) :
    (setLinkWatchBody payload s).leaves fun t => (timers t).good := by
  refine leaves_checked fun _ => ?_
  split
  next action legal _ => exact setWatch_timed h ((inRange_iff ..).1 legal).2 action
  next => trivial

theorem wakeBody_timed (payload : List Byte) (h : (timers s).good) :
    (wakeBody payload s).leaves fun t => (timers t).good :=
  leaves_checked fun _ => leaves_ite (fun _ => returnToRun_timed h) fun _ => h

theorem submitSound_timed (head : Fin 32) (due : Word) (urgent : Bool) (h : (timers s).good) :
    (submitSound head due urgent s).leaves fun t => (timers t).good := by
  refine leaves_checked fun _ => leaves_checked fun _ => ?_
  split
  · trivial
  · exact h

/-- R37: CONFIGURE SCAN, SET ALARM, SET LINK WATCH and WAKE write the timers, each within its ranges; no other request touches them. -/
theorem requestBody_timed {c : Instr} {kind : Byte} (hc : requestCode c = some kind) (payload : List Byte) (h : (timers s).good) :
    (requestBody c payload s).leaves fun t => (timers t).good := by
  cases c with
  | configureScan => exact configureScanBody_timed payload h
  | setKey => exact setKeyBody_timed payload h
  | setAlarm => exact setAlarmBody_timed payload h
  | setLinkWatch => exact setLinkWatchBody_timed payload h
  | wake => exact wakeBody_timed payload h
  | identify | echo | getStatus | clearCounters | restart | chainStatus | flushKeys | getKeyStates | readTime =>
    exact leaves_checked fun _ => h
  | clearCanvas | setBackdrop | setContrast | setBlink | takeKeys => exact leaves_checked fun _ => leaves_passed fun _ => h
  | configurePanel | stage | enterSleep => exact leaves_checked fun _ => leaves_checked fun _ => leaves_checked fun _ => h
  | enterDoze => exact leaves_checked fun _ => leaves_ite (fun _ => h) fun _ => leaves_checked fun _ => h
  | readCanvas | readAttributes | writeAtCursor | getView | selectViews | setDisplayMode | readDescriptor =>
    refine leaves_checked fun _ => ?_
    split
    · exact h
    · trivial
  | writeCanvas | writeAttributes | setView =>
    refine leaves_checked fun _ => ?_
    split
    · exact leaves_passed fun _ => h
    · trivial
  | loadDescriptor | freeDescriptor =>
    refine leaves_checked fun _ => ?_
    split
    · exact leaves_checked fun _ => h
    · trivial
  | setCursor | cancelChain =>
    refine leaves_checked fun _ => leaves_checked fun _ => ?_
    split
    · exact h
    · trivial
  | submitChain =>
    refine leaves_checked fun _ => ?_
    split
    · exact submitSound_timed _ _ _ h
    · trivial
  | _ => cases hc

/-! ## The timers through every command -/

theorem reset_timed : (timers State.reset).good := by
  obtain ⟨-, -, -, -, -, ⟨ranges, timebase⟩, -⟩ := Proofs.resetMeetsTheInvariants
  exact
    { config :=
        ⟨ranges.drives, ranges.senses, ranges.period, ranges.settle, ranges.repeatDelay, ranges.repeatInterval⟩
      passTimer := ranges.passTimer
      alarm := ⟨timebase.alarmOff, timebase.alarmOn⟩
      watch := ⟨timebase.watchPeriod, timebase.watchOn, timebase.watchOff⟩ }

theorem timed_of_eq {t : State} (h : (timers s).good) (e : timers t = timers s) : (timers t).good := by rwa [e]

/-- A command that acts in some states only. -/
theorem timed_ite {b : Prop} [Decidable b] {t : State} (h : (timers s).good) (ht : (timers t).good) :
    (timers (if b then t else s)).good := by
  split
  · exact ht
  · exact h

theorem portWrite_timed (h : (timers s).good) (address : PortAddress) (value : Byte) :
    (timers (portWrite address value s)).good := by
  rcases timers_portWrite s address value with e | e
  · exact timed_of_eq h e
  · exact timed_of_eq reset_timed e

/-- R174: the RST input. -/
theorem rstChanges_timed (h : (timers s).good) (low : Bool) : (timers (rstChanges low s)).good := by
  unfold rstChanges
  split
  · exact reset_timed
  · exact h

theorem effect_timed (c : Instr) (h : (timers s).good) : (timers (effect c s)).good := by
  cases c with
  | linkDataWrite value => exact portWrite_timed h 0 value
  | linkDataRead => exact timed_of_eq h (timers_readLinkData s)
  | linkStatusRead => exact h
  | resync value => exact portWrite_timed h 1 value
  | fullReset value => exact portWrite_timed h 1 value
  | noticeAcknowledge address value => exact portWrite_timed h address value
  | noticeMask address value => exact portWrite_timed h address value
  | ignoredPortWrite address value => exact portWrite_timed h address value
  | byteTaken => exact takingStep_timed h
  | gapTimeout => exact timed_ite h (tickStep_timed h)
  | huntingEnd => exact timed_ite h (tickStep_timed h)
  | posting => exact postingStep_timed h
  | sleepEntry => exact timed_of_eq h (timers_enterSleepIfReady s)
  | unknownKindRequest =>
    exact execute_leaves (P := fun t => (timers t).good) (fun _ _ => id) unknownKind
      (body := unknownKindBody) (fun _ _ _ => trivial) h
  | frameBoundary waited =>
    have waiting : timers (countWait waited s) = timers s := by cases waited <;> rfl
    show (timers (if boundaryDue s then boundary (countWait waited s) else s)).good
    exact timed_ite h (timed_of_eq h ((timers_boundary _).trans waiting))
  | resumingBoundary => exact timed_ite h (timed_of_eq h (timers_boundary s))
  | rowScanOut =>
    show (timers (match dueRow s with
      | some r => scanRow r s
      | none => s)).good
    cases dueRow s <;> exact h
  | tick => exact tickStep_timed h
  | scanPass longGhosts => exact timed_of_eq h (timers_scanPassStep s longGhosts)
  | repeatEvent longGhosts =>
    show (timers (if repeatRunsOut longGhosts s then scanPassStep longGhosts s else s)).good
    exact timed_ite h (timed_of_eq h (timers_scanPassStep s longGhosts))
  | alarmExpiry => exact timed_ite h (tickStep_timed h)
  | linkWatchExpiry => exact timed_ite h (tickStep_timed h)
  | wakeStep =>
    show (timers (if wakeStepDue s then closeStep (returnToRun (resumeEngine s)) else s)).good
    refine timed_ite h ?_
    rw [timers_closeStep]
    exact returnToRun_timed (timed_of_eq h (timers_resumeEngine s))
  | endOfStarting => exact timed_ite h (returnToRun_timed h)
  | powerOnReset => exact reset_timed
  | rstPinReset low => exact rstChanges_timed h low
  | watchedLineChange key closed => exact timed_of_eq h (timers_contactChanges key s closed)
  | _ =>
    rw [effect_of_requestCode rfl]
    exact execute_leaves (P := fun t => (timers t).good) (fun _ _ => id) _ (fun payload t ht => requestBody_timed rfl payload ht) h

/-! ## The panel and the blink state -/

/-- R79, R85: the numbers of the panel and of the blink state lie in their ranges. -/
structure Picture.numbersGood (p : Picture) : Prop where
  columns : countOfEights 32 160 p.columns = true
  rows : countOfEights 16 64 p.rows = true
  rate : inRange 40 125 p.frameRate = true
  contrast : inRange 0 31 p.contrast = true
  blinkPeriod : 2 ≤ p.blinkPeriod.toNat
  blinkCount : p.blinkCount < p.blinkPeriod

theorem Picture.numbersGood.of_kept {p q : Picture} (h : p.numbersGood) (columns : q.columns = p.columns) (rows : q.rows = p.rows)
    (rate : q.frameRate = p.frameRate) (contrast : q.contrast = p.contrast) (period : q.blinkPeriod = p.blinkPeriod)
    (count : q.blinkCount < p.blinkPeriod) : q.numbersGood :=
  ⟨columns ▸ h.columns, rows ▸ h.rows, rate ▸ h.rate, contrast ▸ h.contrast, period ▸ h.blinkPeriod, period ▸ count⟩

/-- R80: CONFIGURE PANEL. -/
theorem configurePanelBody_numbersGood (payload : List Byte) (h : (picture s).numbersGood) :
    (configurePanelBody payload s).leaves fun t => (picture t).numbersGood := by
  refine leaves_checked fun _ => leaves_checked fun legal => leaves_checked fun _ => ?_
  simp only [panelFieldsOk, Bool.not_eq_true', Bool.not_eq_false, Bool.and_eq_true] at legal
  obtain ⟨⟨columns, rows⟩, rate⟩ := legal
  exact ⟨columns, rows, rate, h.contrast, h.blinkPeriod, h.blinkCount⟩

/-- R81: SET CONTRAST. -/
theorem setContrastBody_numbersGood (payload : List Byte) (h : (picture s).numbersGood) :
    (setContrastBody payload s).leaves fun t => (picture t).numbersGood :=
  leaves_checked fun _ => leaves_passed fun legal => ⟨h.columns, h.rows, h.rate, legal, h.blinkPeriod, h.blinkCount⟩

/-- R86: SET BLINK begins a new period at count 0. -/
theorem setBlinkBody_numbersGood (payload : List Byte) (h : (picture s).numbersGood) :
    (setBlinkBody payload s).leaves fun t => (picture t).numbersGood := by
  refine leaves_checked fun _ => leaves_passed fun legal => ?_
  have period := ((inRange_iff ..).1 legal).1
  exact ⟨h.columns, h.rows, h.rate, h.contrast, period, Nat.lt_of_lt_of_le Nat.zero_lt_two period⟩

/-- R85: the blink counter one boundary on. -/
theorem advancedBlinkCount_lt {count period : Byte} (hp : 2 ≤ period.toNat) (h : count < period) :
    (if count + 1 = period then 0 else count + 1) < period := by
  split <;> bv_omega

/-- R89: of the nine steps the blink state alone changes the blink counter. -/
theorem boundary_blinkCount (s : State) :
    (boundary s).frames.blinkCount =
      if s.frames.blinkCount + 1 = s.frames.blinkPeriod then 0 else s.frames.blinkCount + 1 := by
  have closed : (boundary s).frames.blinkCount = (boundarySteps s).frames.blinkCount :=
    congrArg Picture.blinkCount (picture_closeStep (boundarySteps s))
  obtain ⟨canvas, views, chains, sticky, e⟩ := applyDueChains_frame (advancedFrame s)
  rw [closed, boundarySteps_eq, e, advancedFrame, advanceBlink_eq]
  rfl

theorem boundary_numbersGood (h : (picture s).numbersGood) : (picture (boundary s)).numbersGood := by
  have kept := (boundary_draws (s := s)).kept
  refine h.of_kept (congrArg (fun p => p.columns) kept) (congrArg (fun p => p.rows) kept) (congrArg (fun p => p.frameRate) kept)
    (congrArg (fun p => p.contrast) kept) (congrArg (fun p => p.blinkPeriod) kept) ?_
  show (boundary s).frames.blinkCount < s.frames.blinkPeriod
  rw [boundary_blinkCount]
  exact advancedBlinkCount_lt h.blinkPeriod h.blinkCount

theorem boundaryCommand_numbersGood {c : Instr} (hc : boundaryCommand c = true) (h : (picture s).numbersGood) :
    (picture (effect c s)).numbersGood := by
  cases c with
  | frameBoundary waited =>
    have waiting : (picture (countWait waited s)).numbersGood := by cases waited <;> exact h
    show (picture (if boundaryDue s then boundary (countWait waited s) else s)).numbersGood
    split
    · exact boundary_numbersGood waiting
    · exact h
  | resumingBoundary =>
    show (picture (if resumingDue s then boundary s else s)).numbersGood
    split
    · exact boundary_numbersGood h
    · exact h
  | _ => cases hc

/-- R79, R80, R81, R85, R86: what is neither a boundary nor one of the three requests leaves these numbers. -/
theorem Draws.numbersGood {c : Instr} {restart : Prop} {p q : Picture} (draws : Draws c restart p q) (h : p.numbersGood)
    (panel : c ≠ .configurePanel) (contrast : c ≠ .setContrast) (blink : c ≠ .setBlink) (frame : boundaryCommand c ≠ true) :
    q.numbersGood := by
  have fields : q.columns = p.columns ∧ q.rows = p.rows ∧ q.frameRate = p.frameRate := by
    simpa only [not_or, not_not] using mt draws.panel panel
  have count : q.blinkCount = p.blinkCount := by
    by_contra changed
    exact (draws.blink (.inl changed)).elim blink frame
  obtain ⟨columns, rows, rate⟩ := fields
  refine h.of_kept columns rows rate (not_not.1 (mt draws.contrast contrast)) (not_not.1 (mt draws.blinkPeriod blink)) ?_
  rw [count]
  exact h.blinkCount

theorem reset_numbersGood : (picture State.reset).numbersGood := by
  obtain ⟨-, -, -, -, -, ⟨ranges, -⟩, -⟩ := Proofs.resetMeetsTheInvariants
  exact ⟨ranges.columns, ranges.rows, ranges.rate, ranges.contrast, ranges.blinkPeriod, ranges.blinkCount⟩

theorem effect_numbersGood (c : Instr) (h : (picture s).numbersGood) : (picture (effect c s)).numbersGood := by
  have requests {kind : Byte} {body : List Byte → State → Verdict}
      (hb : ∀ payload t, (picture t).numbersGood → (body payload t).leaves fun u => (picture u).numbersGood) :
      (picture (executeKind kind body s)).numbersGood :=
    execute_leaves (P := fun t => (picture t).numbersGood) (fun _ _ => id) _ hb h
  rcases redraws_effect c s with draws | ⟨reset, -⟩
  · by_cases panel : c = .configurePanel
    · subst panel
      exact requests fun payload _ => configurePanelBody_numbersGood payload
    by_cases contrast : c = .setContrast
    · subst contrast
      exact requests fun payload _ => setContrastBody_numbersGood payload
    by_cases blink : c = .setBlink
    · subst blink
      exact requests fun payload _ => setBlinkBody_numbersGood payload
    by_cases frame : boundaryCommand c = true
    · exact boundaryCommand_numbersGood frame h
    · exact draws.numbersGood h panel contrast blink frame
  · rw [reset]
    exact reset_numbersGood

/-! ## The two parts together -/

theorem ranges_iff (s : State) : RangesGood s ∧ TimebaseGood s ↔ (picture s).numbersGood ∧ (timers s).good := by
  constructor
  · rintro ⟨ranges, timebase⟩
    exact
      ⟨⟨ranges.columns, ranges.rows, ranges.rate, ranges.contrast, ranges.blinkPeriod, ranges.blinkCount⟩,
        ⟨ranges.drives, ranges.senses, ranges.period, ranges.settle, ranges.repeatDelay, ranges.repeatInterval⟩,
        ranges.passTimer, ⟨timebase.alarmOff, timebase.alarmOn⟩, timebase.watchPeriod, timebase.watchOn, timebase.watchOff⟩
  · rintro ⟨picture, timers⟩
    exact
      ⟨{ columns := picture.columns
         rows := picture.rows
         rate := picture.rate
         contrast := picture.contrast
         blinkPeriod := picture.blinkPeriod
         blinkCount := picture.blinkCount
         drives := timers.config.drives
         senses := timers.config.senses
         period := timers.config.period
         settle := timers.config.settle
         repeatDelay := timers.config.repeatDelay
         repeatInterval := timers.config.repeatInterval
         passTimer := timers.passTimer },
        { alarmOff := timers.alarm.off
          alarmOn := timers.alarm.on
          watchPeriod := timers.watch.period
          watchOn := timers.watch.on
          watchOff := timers.watch.off }⟩

end

end Sys2Proof.Machine

namespace Sys2Proof.Proofs

open Sys2Proof.Machine

/-- Settles O54: the panel and blink numbers and the timers, each through every command; taking the command off the queue touches neither. -/
theorem rangesStayGood : Obligations.RangesStayGood := by
  intro s t h hstep
  cases hp : s.pending with
  | nil =>
    rw [step_of_pending_nil hp] at hstep
    cases hstep
    exact h
  | cons c rest =>
    rw [step_of_pending_cons hp, exec_eq_effect] at hstep
    cases hstep
    obtain ⟨picture, timers⟩ := (ranges_iff s).1 h
    exact (ranges_iff _).2 ⟨effect_numbersGood (s := s.withPending rest) c picture, effect_timed (s := s.withPending rest) c timers⟩

end Sys2Proof.Proofs
end

section
/-! PROOFS. The statement about a sound SUBMIT CHAIN (R112 to R116): the due frame, the handle, the slots that are held, and the place in the queue. -/

namespace Sys2Proof.Machine

/-- R116: where a record joins a queue whose urgent records stand first. -/
theorem enqueueChain_split {queue : List PendingChain} (h : urgentFirst queue) (c : PendingChain) :
    ∃ front back, queue = front ++ back ∧ enqueueChain c queue = front ++ c :: back ∧
      (if c.urgent then (∀ x ∈ front, x.urgent = true) ∧ ∀ x ∈ back, x.urgent = false else back = []) := by
  unfold enqueueChain
  split
  next urgent =>
    refine ⟨_, _, List.takeWhile_append_dropWhile.symm, rfl, fun x hx => List.mem_takeWhile_imp hx, fun x hx => ?_⟩
    -- the first record behind the urgent ones is not urgent, so none behind it is
    have rest : urgentFirst (queue.dropWhile fun x => x.urgent) := h.sublist (List.dropWhile_sublist _)
    cases hd : queue.dropWhile fun x => x.urgent with
    | nil =>
      rw [hd] at hx
      cases hx
    | cons first back =>
      have notUrgent : first.urgent = false := by
        have stop := List.head_dropWhile_not (l := queue) (fun x : PendingChain => x.urgent) (by simp [hd])
        simpa [hd] using stop
      rw [hd] at hx rest
      rcases List.mem_cons.1 hx with rfl | hx
      · exact notUrgent
      · exact Bool.eq_false_iff.2 fun e => absurd (notUrgent.symm.trans ((List.pairwise_cons.1 rest).1 x hx e)) nofun
  next => exact ⟨queue, [], (List.append_nil _).symm, rfl, rfl⟩

/-- R112: the due frame of the fields of SUBMIT CHAIN. -/
theorem dueFrameOf_eq_some {kind lo hi : Byte} {due counter : Word}
    (h : (kind = 0 ∧ due = counter + 1) ∨
      (kind = 1 ∧ 1 ≤ hi.toNat * 256 + lo.toNat ∧ hi.toNat * 256 + lo.toNat ≤ 255 ∧ due = counter + (hi ++ lo)) ∨
      (kind = 2 ∧ due = hi ++ lo)) : dueFrameOf kind (hi ++ lo) counter = some due := by
  rcases h with ⟨rfl, rfl⟩ | ⟨rfl, least, most, rfl⟩ | ⟨rfl, rfl⟩
  · rfl
  · have ranged : 1 ≤ (hi ++ lo : Word).toNat ∧ (hi ++ lo : Word).toNat ≤ 255 := by
      rw [append_toNat]
      exact ⟨least, most⟩
    exact if_pos ranged
  · rfl

section
variable {kind lo hi flags : Byte} {head : Fin 32} {due : Word} {s : State}

theorem submitChainBody_of_due (hd : dueFrameOf kind (hi ++ lo) s.frames.counter = some due) :
    submitChainBody [BitVec.ofNat 8 head.val, kind, lo, hi, flags] s = submitSound head due (flags.getLsbD 0) s := by
  have hslot : slotOf (byteAt [BitVec.ofNat 8 head.val, kind, lo, hi, flags] 0) = some head := slotOf_ofNat head
  have hframe : dueFrameOf (byteAt [BitVec.ofNat 8 head.val, kind, lo, hi, flags] 1)
      (wordAt [BitVec.ofNat 8 head.val, kind, lo, hi, flags] 2) s.frames.counter = some due := hd
  unfold submitChainBody
  rw [if_neg (by simp), hslot, hframe]
  rfl

/-- R113: a walk that proves sound. -/
theorem submitSound_of_sound {urgent : Bool} {slots : List (Fin 32)} (hp : s.power.state ≠ .doze) (hq : s.chains.queue.length < 4)
    (hw : walkChain s.chains.pool [] 31 head = .sound slots) : submitSound head due urgent s = queueChain head slots due urgent s := by
  have room : ¬ Config.chainPlaces ≤ s.chains.queue.length := Nat.not_le.2 hq
  unfold submitSound
  rw [if_neg hp, if_neg room, hw]

/-- R114 to R116: the effect of SUBMIT CHAIN, where the new handle and the new queue are known. -/
theorem queueChain_eq {slots : List (Fin 32)} {urgent : Bool} {handle : Byte} {queue : List PendingChain}
    (fresh : freshHandle s.chains.queue 4 (nextHandle s.chains.lastHandle) = handle)
    (joined : enqueueChain { handle := handle, head := head, length := slots.length, due := due, urgent := urgent } s.chains.queue = queue) :
    queueChain head slots due urgent s =
      doneReading
        { s with chains :=
            { s.chains with
              pool := mapPoolSlots (holdSlot handle) slots s.chains.pool, queue := queue, lastHandle := handle } }
        [handle, BitVec.ofNat 8 slots.length, BitVec.ofNat 8 (due.toNat % 256), BitVec.ofNat 8 (due.toNat / 256)] := by
  subst fresh joined
  simp only [queueChain, wordBytes_eq]
  rfl

end

end Sys2Proof.Machine

namespace Sys2Proof.Proofs

open Sys2Proof.Machine

/-- Settles O11: the walk is the linked run, the handle the first free candidate, the place in the queue behind the urgent records or at the end. -/
theorem submitChainHoldsAndQueues : Obligations.SubmitChainHoldsAndQueues := by
  intro tag kind lo hi flags head path due s good h hp hq hhead hnodup hpath hend hdue
  obtain ⟨j, hj, fresh, passed, free⟩ := freshHandle_free s.chains.queue s.chains.lastHandle hq
  obtain ⟨front, back, split, joined, place⟩ := enqueueChain_split good.urgent
    { handle := handleCandidate s.chains.lastHandle j, head := head, length := path.length, due := due, urgent := flags.getLsbD 0 }
  have walk : walkChain s.chains.pool [] 31 head = .sound path := walkChain_end _ path [] 31 head hhead hnodup hpath hend rfl
  have held := mapPoolSlots_get (holdSlot (handleCandidate s.chains.lastHandle j)) path s.chains.pool hnodup
  refine ⟨j, _, mapPoolSlots (holdSlot (handleCandidate s.chains.lastHandle j)) path s.chains.pool, front, back, hj, rfl, free, passed,
    fun i hi => (held i).trans (if_neg hi), fun i d hi hd => ?_, split, place, ?_⟩
  · rw [held, if_pos hi, hd]
    rfl
  · have body := (submitChainBody_of_due (s := beginExecution s) (flags := flags) (head := head) (dueFrameOf_eq_some hdue)).trans
      (submitSound_of_sound (by simp [hp]) hq walk)
    exact exec_of_done rfl h (body.trans (queueChain_eq fresh joined)) rfl rfl

end Sys2Proof.Proofs
end

section
/-! PROOFS. The statement about the due chains (R117 to R120): the first due chain is applied as a whole, and what is due then is what is still due. -/

namespace Sys2Proof.Machine

/-- R156: a notice that is set stays as it is. -/
theorem raise_raise (n : Notice) (s : State) : raise n (raise n s) = raise n s := by
  simp only [raise, BitVec.or_assoc, BitVec.or_self]

section
variable {s : State} {c : PendingChain}

/-- R100, R119: the slots of a pending chain are those that are Held with its handle. -/
theorem mapPoolSlots_of_chainHolds (f : PoolSlot → PoolSlot) {pool : Vector PoolSlot 32} (hc : chainHolds pool c) (i : Fin 32) :
    (mapPoolSlots f (chainSlots pool 32 c.head) pool)[i] =
      match pool[i] with
      | .held g d => if g = c.handle then f (.held g d) else .held g d
      | other => other := by
  obtain ⟨-, nodup, holds⟩ := hc
  rw [mapPoolSlots_get _ _ _ nodup]
  by_cases hi : i ∈ chainSlots pool 32 c.head
  · obtain ⟨d, hd⟩ := (holds i).1 hi
    simp [hi, hd]
  · rw [if_neg hi]
    cases hx : pool[i] with
    | held g d =>
      have hg : g ≠ c.handle := fun e => hi ((holds i).2 ⟨d, by rw [hx, e]⟩)
      simp [hg]
    | _ => rfl

/-- R118: the actions of a chain leave the pool, the queue and the outcomes. -/
theorem runActions_chains (actions : List Action) (s : State) :
    (runActions actions s).chains.pool = s.chains.pool ∧ (runActions actions s).chains.queue = s.chains.queue ∧
      (runActions actions s).chains.outcomes = s.chains.outcomes := by
  obtain ⟨_, _, _, _, e⟩ := runActions_frame actions s
  rw [e]
  exact ⟨rfl, rfl, rfl⟩

/-- R118, R119, R120: what the application of a chain leaves, where its record stands in the queue behind others. -/
theorem applyChain_eq {front back : List PendingChain} (hq : s.chains.queue = front ++ c :: back) (hc : c ∉ front)
    (ho : s.chains.outcomes.length ≤ 4) :
    let slots := chainSlots s.chains.pool 32 c.head
    let actions := chainActions s.chains.pool slots
    let u := runActions actions s
    applyChain c s =
      { u with chains :=
          { u.chains with
            pool := mapPoolSlots releaseSlot slots s.chains.pool
            queue := front ++ back
            outcomes := outcomesWith (appliedOutcome c.handle (countSkipped actions s)) u.chains.outcomes } } := by
  intro slots actions u
  obtain ⟨pool, queue, outcomes⟩ := runActions_chains actions s
  have left : u.chains.queue.erase c = front ++ back := by
    rw [queue, hq, List.erase_append_right _ hc, List.erase_cons_head]
  rw [← left, ← pool, ← recordOutcome_eq _ (outcomes ▸ ho)]
  rfl

/-- R87, R117: the application of a chain leaves the frame counter. -/
theorem applyChain_counter (c : PendingChain) (s : State) : (applyChain c s).frames.counter = s.frames.counter := by
  obtain ⟨_, _, _, _, e⟩ := applyChain_frame c s
  rw [e]

/-- R117: the first due chain is applied, then those that are due in the state that it leaves. -/
theorem applyDueChains_of_cons (h : dueChains s = c :: dueChains (applyChain c s)) :
    applyDueChains s = raise .chainDone (applyDueChains (applyChain c s)) := by
  unfold applyDueChains
  rw [h]
  dsimp only
  cases dueChains (applyChain c s) with
  | nil => rfl
  | cons next rest => exact (raise_raise _ _).symm

end

end Sys2Proof.Machine

namespace Sys2Proof.Proofs

open Sys2Proof.Machine

/-- Settles O38: the record that stands first among the due ones is the first that is applied, and leaves the others in their order. -/
theorem dueChainsAreApplied : Obligations.DueChainsAreApplied := by
  rintro s ⟨good, holds, -⟩
  refine ⟨fun quiet => applyDueChains_of_none s (List.filter_eq_nil_iff.2 fun c hc => by simpa using quiet c hc), ?_⟩
  intro front back c hq before due slots actions u left skipped
  have member : c ∈ s.chains.queue := hq ▸ List.mem_append_right _ (List.mem_cons_self ..)
  obtain ⟨pool, queue, outcomes⟩ := runActions_chains actions s
  refine ⟨_, mapPoolSlots_of_chainHolds releaseSlot (holds c member), pool, queue, outcomes, ?_⟩
  intro applied rest
  have first : applyChain c s = applied := by
    have e := applyChain_eq hq (fun hc => before c hc due) good.outcomes
    dsimp only at e
    rw [countSkipped_eq] at e
    exact e
  have none_before : front.filter (fun x => x.due == s.frames.counter) = [] :=
    List.filter_eq_nil_iff.2 fun x hx => by simpa using before x hx
  have then_due : dueChains s = c :: dueChains (applyChain c s) := by
    have kept : (applyChain c s).chains.queue = front ++ back := congrArg (fun t => t.chains.queue) first
    simp [dueChains, kept, applyChain_counter, hq, none_before, due]
  rw [applyDueChains_of_cons then_due, first]
  rfl

end Sys2Proof.Proofs
end

section
/-! PROOFS. The statement about the Held slots (R100, R113) fails: it takes a walk that comes to a Free slot for a whole chain, and LOAD DESCRIPTOR
of that slot makes the walk longer than the chain that is held. -/

namespace Sys2Proof.Machine

/-- A MARK whose Next is slot 6. -/
def markThenSlot6 : Descriptor := { action := .mark 7, next := some 6, release := false }

/-- A MARK at the end of a chain, as LOAD DESCRIPTOR reads it below. -/
def markThenEnd : Descriptor := { action := .mark 8, next := none, release := false }

/-- The payload of a LOAD DESCRIPTOR of slot 6. -/
def loadSlot6 : List Byte := [6, 6, 0xFF, 0, 8, 0, 0, 0, 0, 0, 0, 0]

/-- In Run one chain is pending. It holds slot 5 alone, but the Next of slot 5 names slot 6, which is Free; a LOAD DESCRIPTOR of slot 6 is due. -/
def openEnded : State :=
  { State.reset with
    power := { State.reset.power with state := .run }
    requests := { slots := [{ stage := .waitingGood, stored := 0x29 :: 0x21 :: (loadSlot6 ++ [0]) }], engine := .idle }
    chains :=
      { defaultChains with
        pool := defaultChains.pool.set (5 : Fin 32) (.held 9 markThenSlot6)
        queue := [{ handle := 9, head := 5, length := 1, due := 1, urgent := false }] }
    pending := [.loadDescriptor] }

theorem openEnded_slot (i : Fin 32) : openEnded.chains.pool[i] = if i = 5 then .held 9 markThenSlot6 else .free := by
  have free : defaultChains.pool[i] = .free := Vector.getElem_replicate i.isLt
  exact (pool_set_get defaultChains.pool 5 i _).trans (by rw [free])

/-- R118: the walk stops at the Free slot. -/
theorem openEnded_walk : chainSlots openEnded.chains.pool 32 5 = [5] := rfl

theorem openEnded_holdsGood : HoldsGood openEnded where
  queue :=
    { pending := by decide
      outcomes := by decide
      handles := List.nodup_singleton _
      nonzero := fun c hc => by rw [List.mem_singleton.1 hc]; decide
      urgent := List.pairwise_singleton .. }
  chains := fun c hc => by
    rw [List.mem_singleton.1 hc]
    refine ⟨rfl, List.nodup_singleton 5, fun i => ?_⟩
    rw [openEnded_walk, List.mem_singleton, openEnded_slot]
    by_cases h5 : i = 5 <;> simp [h5]
  slots := fun i h d hi => by
    rw [openEnded_slot] at hi
    split at hi
    · cases hi
      exact ⟨_, List.mem_singleton_self _, rfl⟩
    · cases hi

/-- R102: slot 6 is Free, so the descriptor is loaded. -/
theorem step_openEnded :
    step openEnded = .next (setPoolSlot 6 (.loaded markThenEnd)
      (answeredOnly 0x29 0x21 0 [] (openEnded.withPending []))) := by
  have due : RequestDue 0x29 0x21 loadSlot6 (openEnded.withPending []) := ⟨rfl, .inl rfl, 0, [], rfl⟩
  rw [step_of_pending_cons rfl]
  exact exec_of_done rfl due (loadDescriptorBody_of_named (i := 6) (d := markThenEnd) rfl rfl rfl) rfl rfl

end Sys2Proof.Machine

namespace Sys2Proof.Proofs

open Sys2Proof.Machine

/-- Refutes O55: the chain of slot 5 ends at slot 6 only because slot 6 is Free. Once slot 6 is Loaded the walk visits both, and slot 6 is not Held. -/
theorem not_heldSlotsBelongToTheirChain : ¬ Obligations.HeldSlotsBelongToTheirChain := by
  intro h
  have after : HoldsGood _ := h openEnded _ openEnded_holdsGood step_openEnded
  obtain ⟨length, -, -⟩ := after.chains _ (List.mem_singleton_self _)
  have walk : chainSlots (openEnded.chains.pool.set (6 : Fin 32) (.loaded markThenEnd)) 32 5 = [5, 6] := rfl
  exact absurd ((congrArg List.length walk).symm.trans length) (by decide)

end Sys2Proof.Proofs
end

section
/-! PROOFS. The statement about offered key events and the press-side transition (R136 to R140, R149, R151, R152). -/

namespace Sys2Proof.Machine

section
variable {kind : EventKind} {key : Byte} {time : Word} {s : State}

/-! ## What an offer adds to the queue (R149, R151, R152) -/

/-- R152: the LOST marker is all that goes ahead of an offered event. -/
theorem queueLost_events (time : Word) (s : State) :
    ∃ markers : List KeyEvent, (queueLost time s).keys.events = s.keys.events ++ markers ∧
      ∀ e ∈ markers, e.kind = .lost ∧ e.time = time := by
  rw [queueLost_eq]
  dsimp only
  split
  · exact ⟨_, rfl, fun e he => List.mem_singleton.1 he ▸ ⟨rfl, rfl⟩⟩
  · exact ⟨[], (List.append_nil _).symm, nofun⟩

/-- R152: the LOST rule changes the queue alone. -/
theorem downCount_queueLost (time : Word) (s : State) : downCount (queueLost time s) = downCount s := by
  rw [queueLost_eq]
  rfl

theorem admits_iff : admits kind time s = true ↔ downCount s + placesNeeded kind ≤ freePlaces (queueLost time s) := by
  rw [admits, decide_eq_true_iff, downCount_queueLost]

theorem offer_of_admitted (h : admits kind time s = true) :
    offer kind key time s = { s with keys :=
      { events := (queueLost time s).keys.events ++ [{ kind := kind, key := key, time := time }]
        dropped := (queueLost time s).keys.dropped } } := by
  rw [offer_eq, if_pos (admits_iff.1 h)]

theorem offer_of_refused (h : admits kind time s = false) :
    offer kind key time s =
      { s with
        keys := { events := (queueLost time s).keys.events, dropped := counted (queueLost time s).keys.dropped }
        counters := { s.counters with lostKey := counted s.counters.lostKey }
        notices := { s.notices with sticky := s.notices.sticky ||| Notice.keyLoss.word } } := by
  rw [offer_eq, if_neg fun fits => Bool.false_ne_true (h.symm.trans (admits_iff.2 fits))]

/-- R149: whether a PRESS was admitted shows at the newest end of the queue. -/
theorem admits_press_iff :
    admits .press time s = true ↔ (offer .press key time s).keys.events ≠ s.keys.events ∧
      (offer .press key time s).keys.events.getLast? = some { kind := .press, key := key, time := time } := by
  obtain ⟨markers, hmarkers, lost⟩ := queueLost_events time s
  cases h : admits .press time s with
  | true => simp [offer_of_admitted h, hmarkers]
  | false =>
    rw [offer_of_refused h]
    refine iff_of_false Bool.false_ne_true fun ⟨changed, last⟩ => ?_
    have nonempty : markers ≠ [] := fun empty => changed (by simp only [hmarkers, empty, List.append_nil])
    simp only [hmarkers, List.getLast?_append_of_ne_nil _ nonempty] at last
    exact nomatch (lost _ (List.mem_of_getLast? last)).1

/-! ## The press-side transition (R136 to R140) -/

variable {k : Fin 64}

theorem pressTransition_of_ambiguous (h : cornered s.scanner.raw k) : pressTransition k s = suppressGhost k s :=
  if_pos ((ambiguous_iff ..).2 h)

theorem pressTransition_of_rollover (h : ¬ cornered s.scanner.raw k) (hd : 8 ≤ downCount s) :
    pressTransition k s = suppressRollover k s := by
  rw [pressTransition, if_neg (mt (ambiguous_iff ..).1 h)]
  exact if_pos hd

theorem pressTransition_of_offered (h : ¬ cornered s.scanner.raw k) (hd : downCount s < 8) :
    pressTransition k s = offerPress k s := by
  rw [pressTransition, if_neg (mt (ambiguous_iff ..).1 h)]
  exact if_neg (Nat.not_le.2 hd)

end

end Sys2Proof.Machine

namespace Sys2Proof.Proofs

open Sys2Proof.Machine

/-- Settles O47: the offer by whether a LOST marker is due, the press-side transition by its three checks in order. -/
theorem pressesAndOffersAreJudged : Obligations.PressesAndOffersAreJudged := by
  refine ⟨fun kind key time s hkind => ?_, fun k s => ⟨?_, ?_, ?_⟩⟩
  · intro o marker events dropped needed
    have places : placesNeeded kind = needed := by
      rcases hkind with rfl | rfl | rfl | rfl <;> rfl
    have queue : (queueLost time s).keys = { events := events, dropped := dropped } := by
      rw [queueLost_eq]
      show (if marker then _ else _) = _
      simp only [events, dropped]
      split <;> rfl
    rw [offer_eq, freePlaces, queue, places]
    rfl
  · exact pressTransition_of_ambiguous
  · exact pressTransition_of_rollover
  · intro clear below
    rw [pressTransition_of_offered clear below, offerPress]
    split
    next admitted =>
      rw [if_pos (admits_press_iff.1 admitted), becomeDown, setKeyState]
      simp only [offer_scanner]
      rfl
    next refused =>
      rw [if_neg (mt admits_press_iff.2 refused), setKeyState, offer_scanner]
      rfl

end Sys2Proof.Proofs
end

section
/-! PROOFS. The reservation of the key event queue (R138, R148, R150) through the operations of the scanner and of the power states: each release that
is queued was outstanding, and each press is admitted with a place for its release. -/

namespace Sys2Proof.Machine

/-! ## What the reservation reads -/

/-- What the reservation of the queue reads: the state of each key and the records. -/
def keyLoad (s : State) : Vector KeyState 64 × List KeyEvent := (s.scanner.states, s.keys.events)

section
variable {s t : State}

/-- R150: the records and the outstanding releases together fit into the queue. -/
theorem reservationKept_iff : ReservationKept s ↔ s.keys.events.length + downCount s ≤ 24 ∧ downCount s ≤ 8 := by
  constructor
  · rintro ⟨places, reported, reserved⟩
    simp only [freePlaces, Config.eventPlaces, Config.keysDownMax] at places reported reserved
    omega
  · rintro ⟨fits, reported⟩
    constructor <;> simp only [freePlaces, Config.eventPlaces, Config.keysDownMax] <;> omega

theorem ReservationKept.of_keyLoad (h : ReservationKept s) (e : keyLoad t = keyLoad s) : ReservationKept t := by
  obtain ⟨states, events⟩ := Prod.mk.inj e
  rw [reservationKept_iff, downCount] at h ⊢
  rwa [states, events]

/-- With no key reported the records need only fit. -/
theorem ReservationKept.of_none_reported (hd : downCount t = 0) (hl : t.keys.events.length ≤ 24) : ReservationKept t := by
  rw [reservationKept_iff]
  omega

theorem ReservationKept.length_le (h : ReservationKept s) : s.keys.events.length ≤ 24 := h.places

theorem ReservationKept.of_allKeysIdle (h : ReservationKept s) (states : t.scanner.states = Vector.replicate 64 .idle)
    (events : t.keys.events.length ≤ s.keys.events.length) : ReservationKept t := by
  refine .of_none_reported ?_ (events.trans h.length_le)
  rw [downCount, states]
  exact downCount_allKeysIdle s

/-- A command that acts in some states only. -/
theorem ReservationKept.ite {p : Prop} [Decidable p] (h : ReservationKept s) (ht : ReservationKept t) :
    ReservationKept (if p then t else s) := by
  split
  · exact ht
  · exact h

/-- A reading of every key in turn. -/
theorem ReservationKept.foldl {f : State → Fin 64 → State} (hf : ∀ t k, ReservationKept t → ReservationKept (f t k))
    (keys : List (Fin 64)) (h : ReservationKept s) : ReservationKept (keys.foldl f s) := by
  induction keys generalizing s with
  | nil => exact h
  | cons k keys ih => exact ih (hf s k h)

end

/-! ## One key -/

section
variable {s : State} (k : Fin 64)

/-- R138, R148: a key that is not made reported takes no place. -/
theorem ReservationKept.setKeyState (h : ReservationKept s) {st : KeyState}
    (hst : st.reported = true → s.scanner.states[k].reported = true) : ReservationKept (setKeyState k st s) := by
  rw [reservationKept_iff] at h ⊢
  have count := downCount_setKeyState k st s
  have records : (Machine.setKeyState k st s).keys = s.keys := rfl
  rw [records]
  cases hr : st.reported with
  | true =>
    rw [hr, hst hr] at count
    omega
  | false =>
    rw [hr] at count
    simp only [Bool.false_eq_true, if_false] at count
    omega

/-- R149, R150: the release of a reported key takes the place that was kept for it. -/
theorem ReservationKept.releaseReported (h : ReservationKept s) (hr : s.scanner.states[k].reported = true) (kind : EventKind)
    (time : Word) : ReservationKept (releaseReported kind k time s) := by
  have count := downCount_setKeyState k .idle s
  rw [if_pos hr, if_neg (by simp [KeyState.reported])] at count
  rw [reservationKept_iff] at h ⊢
  have down : downCount (Machine.releaseReported kind k time s) = downCount (Machine.setKeyState k .idle s) := rfl
  have records : (Machine.releaseReported kind k time s).keys.events.length = s.keys.events.length + 1 :=
    List.length_append
  omega

/-- R149, R151, R152: an offered event is queued only above the outstanding releases. -/
theorem ReservationKept.offer (h : ReservationKept s) {kind : EventKind} (hk : 1 ≤ placesNeeded kind) (key : Byte) (time : Word) :
    ReservationKept (offer kind key time s) := by
  have count := downCount_offer kind key time s
  rw [reservationKept_iff] at h ⊢
  have marked : (queueLost time s).keys.events.length + downCount s ≤ 24 := by
    rw [queueLost_eq]
    dsimp only
    split
    next due =>
      have room := due.2
      simp only [freePlaces, Config.eventPlaces] at room
      simp only [List.length_append, List.length_singleton]
      omega
    next => exact h.1
  cases ha : admits kind time s with
  | false =>
    rw [offer_of_refused ha] at count ⊢
    exact ⟨count.symm ▸ marked, count.symm ▸ h.2⟩
  | true =>
    have fits := admits_iff.1 ha
    simp only [freePlaces, Config.eventPlaces] at fits
    rw [offer_of_admitted ha] at count ⊢
    simp only [List.length_append, List.length_singleton]
    omega

/-- R139, R149, R150: behind an admitted PRESS there is a place for the release. -/
theorem reservationKept_becomeDown (below : downCount s < 8) {key : Byte} {time : Word}
    (ha : admits .press time s = true) : ReservationKept (becomeDown k (Machine.offer .press key time s)) := by
  have fits := admits_iff.1 ha
  simp only [freePlaces, Config.eventPlaces, placesNeeded] at fits
  have count := downCount_setKeyState k .down (Machine.offer .press key time s)
  rw [downCount_offer, if_pos (show KeyState.down.reported = true from rfl)] at count
  have down : downCount (Machine.becomeDown k (Machine.offer .press key time s)) =
      downCount (Machine.setKeyState k .down (Machine.offer .press key time s)) := rfl
  have records : (Machine.becomeDown k (Machine.offer .press key time s)).keys.events.length =
      (queueLost time s).keys.events.length + 1 := by
    show (Machine.offer .press key time s).keys.events.length = _
    rw [offer_of_admitted ha]
    exact List.length_append
  rw [reservationKept_iff]
  omega

/-! ## A scan pass (R133) -/

theorem keyLoad_endRollover (s : State) : keyLoad (endRollover s) = keyLoad s := by
  unfold endRollover
  split <;> rfl

theorem keyLoad_clearOwnerIf (s : State) : keyLoad (clearOwnerIf k s) = keyLoad s := by
  rw [clearOwnerIf_eq]
  rfl

/-- R134: an open reading makes no key reported, and queues the release of one that it lets go. -/
theorem ReservationKept.readOpen (h : ReservationKept s) : ReservationKept (readOpen k s) := by
  have settled (n : Nat) (hr : s.scanner.states[k].reported = true) : ReservationKept (settleUp k n s) := by
    unfold settleUp
    split
    · refine (h.releaseReported k hr .release s.time.ticks).of_keyLoad ?_
      rw [keyLoad_endRollover, keyLoad_clearOwnerIf]
    · exact h.setKeyState k fun _ => hr
  unfold Machine.readOpen
  split
  next => exact h
  next => exact h.setKeyState k nofun
  next hs => exact settled 1 (hs ▸ rfl)
  next n hs => exact settled (n + 1) (hs ▸ rfl)
  next => split <;> exact h.setKeyState k nofun

/-- R136 to R139: the press-side transition reports a key only behind an admitted PRESS, below eight reported keys. -/
theorem ReservationKept.pressTransition (h : ReservationKept s) : ReservationKept (pressTransition k s) := by
  have suppressed : ReservationKept (Machine.setKeyState k (.suppressed 0) s) := h.setKeyState k nofun
  have offered (kind : EventKind) (hk : 1 ≤ placesNeeded kind) (u : State)
      (e : keyLoad u = keyLoad (Machine.setKeyState k (.suppressed 0) s)) :
      ReservationKept (Machine.offer kind (keyByte k) s.time.ticks u) := (suppressed.of_keyLoad e).offer hk ..
  by_cases ambiguous : cornered s.scanner.raw k
  · rw [pressTransition_of_ambiguous ambiguous]
    unfold suppressGhost
    split
    · exact suppressed
    · exact offered .ghost (by decide) _ rfl
  by_cases below : downCount s < 8
  · rw [pressTransition_of_offered ambiguous below]
    unfold offerPress
    split
    next admitted => exact reservationKept_becomeDown k below admitted
    next => exact (h.offer (by decide) ..).setKeyState k nofun
  · rw [pressTransition_of_rollover ambiguous (Nat.not_lt.1 below)]
    unfold suppressRollover
    split
    · exact suppressed
    · exact offered .rollover (by decide) _ rfl

theorem ReservationKept.readClosed (h : ReservationKept s) : ReservationKept (readClosed k s) := by
  have settled (n : Nat) : ReservationKept (settleDown k n s) := by
    unfold settleDown
    split
    · exact h.pressTransition k
    · exact h.setKeyState k nofun
  unfold Machine.readClosed
  split
  next => exact settled 1
  next n _ => exact settled (n + 1)
  next => exact h
  next hs => exact h.setKeyState k fun _ => hs ▸ rfl
  next => exact h.setKeyState k nofun

theorem ReservationKept.passToRelease (h : ReservationKept s) (longGhosts : KeySet) :
    ReservationKept (passToRelease longGhosts s) := by
  have sampled : ReservationKept (ghostCheck (samplePass longGhosts s)) := by
    refine h.of_keyLoad ?_
    unfold ghostCheck
    split <;> rfl
  exact sampled.foldl (fun _ k ht => ht.ite (ht.readOpen k)) _

theorem ReservationKept.pressSide (h : ReservationKept s) : ReservationKept (pressSide s) :=
  h.foldl (fun _ k ht => ht.ite (ht.readClosed k)) _

theorem ReservationKept.serveRepeat {before after : State} (h : ReservationKept after) :
    ReservationKept (serveRepeat before after) := by
  unfold Machine.serveRepeat
  split
  next => exact h
  next j timer _ =>
    split
    · exact (h.offer (kind := .repeated) (Nat.le_refl 1) (keyByte j) after.time.ticks).of_keyLoad rfl
    · exact h.of_keyLoad rfl

theorem ReservationKept.scanPassStep (h : ReservationKept s) (longGhosts : KeySet) :
    ReservationKept (scanPassStep longGhosts s) := by
  have taken : ReservationKept (takePass s) := h.of_keyLoad rfl
  exact h.ite (taken.passToRelease longGhosts).pressSide.serveRepeat

end

/-! ## The forced release, the end of a step and the return to Run (R130, R177, R180) -/

section
variable {s t : State}

/-- R130: a forced release queues as many records as releases are outstanding. -/
theorem forcedReleases_length (s : State) : (forcedReleases s).length = downCount s := by
  have states : s.scanner.states.toList = (List.finRange 64).map fun k => s.scanner.states[k] := by
    apply List.ext_getElem <;> simp
  rw [forcedReleases, List.length_filterMap_eq_countP, downCount, states, List.countP_map]
  congr 1
  funext k
  simp only [Function.comp_apply]
  split <;> simp_all

theorem ReservationKept.of_forcedRelease (h : ReservationKept s) (states : t.scanner.states = Vector.replicate 64 .idle)
    (events : t.keys.events = s.keys.events ++ forcedReleases s) : ReservationKept t := by
  have fits := (reservationKept_iff.1 h).1
  refine .of_none_reported ?_ ?_
  · rw [downCount, states]
    exact downCount_allKeysIdle s
  · rw [events, List.length_append, forcedReleases_length]
    exact fits

theorem ReservationKept.lowered (h : ReservationKept s) (p : PowerState) : ReservationKept (lowered p s) :=
  h.of_forcedRelease rfl rfl

theorem ReservationKept.enterSleepIfReady (h : ReservationKept s) : ReservationKept (enterSleepIfReady s) := by
  rw [enterSleepIfReady_eq]
  exact h.ite (h.lowered .sleep)

theorem ReservationKept.closeStep (h : ReservationKept s) : ReservationKept (closeStep s) := by
  refine ReservationKept.enterSleepIfReady (h.of_keyLoad ?_)
  rw [buildReject_eq, withReject_requests]
  rfl

theorem ReservationKept.returnToRun (h : ReservationKept s) : ReservationKept (returnToRun s) := by
  rw [returnToRun_eq]
  exact h.of_allKeysIdle rfl (Nat.le_refl _)

end

end Sys2Proof.Machine
end

section
/-! PROOFS. The reservation of the key event queue (R138, R148, R150) through every command. -/

namespace Sys2Proof.Machine

section
variable {s : State}

/-! ## The port, the assembler and the posting -/

/-- R181: no key is reported and no record is queued after a reset. -/
theorem reset_reservationKept : ReservationKept State.reset := by
  obtain ⟨-, kept, -⟩ := Proofs.resetMeetsTheInvariants
  exact kept

theorem ReservationKept.resyncLink (h : ReservationKept s) : ReservationKept (resyncLink s) := by
  unfold Machine.resyncLink
  split
  · exact h
  · exact ReservationKept.closeStep (h.of_keyLoad rfl)

theorem ReservationKept.writeLinkControl (h : ReservationKept s) (value : Byte) : ReservationKept (writeLinkControl value s) := by
  unfold Machine.writeLinkControl fullResetPart
  split
  · split
    · exact h.of_keyLoad rfl
    · exact reset_reservationKept.of_keyLoad rfl
  · exact h.ite h.resyncLink

theorem ReservationKept.portWrite (h : ReservationKept s) (address : PortAddress) (value : Byte) :
    ReservationKept (portWrite address value s) := by
  have linkData : keyLoad (writeLinkData value s) = keyLoad s := by
    unfold writeLinkData holdByte
    split
    · rfl
    · split
      · dsimp only
        split <;> rfl
      · rfl
  unfold Machine.portWrite
  split
  · exact h.writeLinkControl value
  · refine h.of_keyLoad ?_
    split
    · rfl
    · split
      · exact linkData
      · split_ifs <;> rfl

theorem ReservationKept.readLinkData (h : ReservationKept s) : ReservationKept (readLinkData s) := by
  unfold Machine.readLinkData
  split
  · exact h.of_keyLoad rfl
  · exact ReservationKept.closeStep (h.of_keyLoad rfl)

/-- R13 to R16: what a taken byte brings about leaves the keys. -/
theorem keyLoad_handleByte (b : Byte) (s : State) : keyLoad (handleByte b s) = keyLoad s := by
  have length (preMark : Bool) : keyLoad (takeLength preMark b s) = keyLoad s := by
    unfold takeLength abandonSleep
    split
    · split <;> rfl
    · rfl
  have complete (sum : Byte) (damaged : Bool) (t : State) : keyLoad (completeParcel sum damaged t) = keyLoad t := by
    unfold completeParcel
    split
    · rfl
    · split
      · rw [goodParcel_eq]
        rfl
      · rfl
  unfold handleByte
  split
  · exact length _
  · unfold takeCollecting
    split
    · exact complete _ _ _
    · rfl
  · rfl

theorem ReservationKept.takingStep (h : ReservationKept s) : ReservationKept (takingStep s) := by
  unfold Machine.takingStep
  split
  next => exact h
  next b _ => exact h.ite (ReservationKept.closeStep (h.of_keyLoad (keyLoad_handleByte b (emptyHolding s))))

theorem ReservationKept.postingStep (h : ReservationKept s) : ReservationKept (postingStep s) := by
  unfold Machine.postingStep
  split
  next a _ =>
    refine ReservationKept.closeStep ?_
    cases a.effect with
    | nothing => exact h.of_keyLoad rfl
    | warmReset => exact h.of_allKeysIdle rfl (Nat.zero_le _)
    | enterDoze =>
      show ReservationKept (enterLowPower .doze (postBytes a s))
      rw [enterLowPower_eq]
      exact h.of_forcedRelease rfl rfl
    | enterSleep => exact h.of_keyLoad rfl
  next => exact h

/-! ## The tick and the boundary -/

/-- R164: the gap timer and the pass timer leave the keys. -/
theorem keyLoad_servePassTimer (s : State) : keyLoad (servePassTimer (serveGap (advanceTick s))) = keyLoad s := by
  have gap (t : State) : keyLoad (serveGap t) = keyLoad t := by
    unfold serveGap
    split
    · rfl
    · split <;> rfl
    · split <;> rfl
  have pass (t : State) : keyLoad (servePassTimer t) = keyLoad t := by
    unfold servePassTimer
    split
    · split <;> rfl
    · rfl
  rw [pass, gap]
  rfl

/-- R167, R176: an alarm that wakes the part makes every key Idle. -/
theorem ReservationKept.serveAlarm (h : ReservationKept s) : ReservationKept (serveAlarm s) := by
  have rung : ReservationKept (raise .alarm { s with time := expiredAlarm s.time }) := h.of_keyLoad rfl
  unfold Machine.serveAlarm alarmExpires
  split
  · exact h
  · split
    · exact rung.ite rung.returnToRun
    · exact h.of_keyLoad rfl

theorem keyLoad_serveWatch (s : State) : keyLoad (serveWatch s) = keyLoad s := by
  unfold serveWatch watchExpires
  split
  · split
    · cases s.time.watchAction <;> rfl
    · rfl
  · rfl

theorem ReservationKept.tickStep (h : ReservationKept s) : ReservationKept (tickStep s) := by
  have counted : ReservationKept (servePassTimer (serveGap (advanceTick s))) := h.of_keyLoad (keyLoad_servePassTimer s)
  exact h.ite (counted.serveAlarm.of_keyLoad (keyLoad_serveWatch _)).closeStep

theorem keyLoad_beyondFrame (s : State) : keyLoad (beyondFrame s) = keyLoad s := rfl

theorem ReservationKept.boundary (h : ReservationKept s) : ReservationKept (boundary s) := by
  have steps : keyLoad (boundarySteps s) = keyLoad s := by
    rw [← keyLoad_beyondFrame, beyondFrame_boundarySteps, keyLoad_beyondFrame]
  exact (h.of_keyLoad steps).closeStep

/-! ## The requests (R37) -/

theorem configureScanBody_reservationKept (payload : List Byte) (h : ReservationKept s) :
    (configureScanBody payload s).leaves ReservationKept := by
  refine leaves_checked fun _ => ?_
  split
  next config _ =>
    obtain ⟨armed, e⟩ := configureScan_eq s config
    rw [e]
    exact h.of_forcedRelease rfl rfl
  next => trivial

/-- R127: a disabled key that was reported has its release queued. -/
theorem ReservationKept.setKey (h : ReservationKept s) (k : Fin 64) (r : KeyRecord) : ReservationKept (setKey k r s) := by
  have disabled (t : State) (ht : ReservationKept t) : ReservationKept (disableKey k t) := by
    unfold disableKey
    split
    next hr =>
      refine (ht.releaseReported k hr .forcedRelease t.time.ticks).of_keyLoad ?_
      rw [keyLoad_endRollover, keyLoad_clearOwnerIf]
    next => exact ht.setKeyState k nofun
  have changed (before after : Bool) (t : State) (ht : ReservationKept t) : ReservationKept (changeEnabled k before after t) := by
    unfold changeEnabled
    split
    · exact ht
    · exact disabled t ht
    · exact ht.setKeyState k nofun
    · exact ht
  rw [Machine.setKey, stopRepeatIf_eq]
  exact (changed _ _ (setKeyRecord k r s) (h.of_keyLoad rfl)).of_keyLoad rfl

theorem setKeyBody_reservationKept (payload : List Byte) (h : ReservationKept s) :
    (setKeyBody payload s).leaves ReservationKept := by
  refine leaves_checked fun _ => ?_
  split
  · exact h.setKey _ _
  · trivial

theorem takeKeysBody_reservationKept (payload : List Byte) (h : ReservationKept s) :
    (takeKeysBody payload s).leaves ReservationKept := by
  refine leaves_checked fun _ => leaves_passed fun _ => ?_
  have fits := reservationKept_iff.1 h
  refine reservationKept_iff.2 ⟨?_, fits.2⟩
  show (s.keys.events.drop _).length + downCount s ≤ 24
  rw [List.length_drop]
  omega

theorem flushKeysBody_reservationKept (payload : List Byte) (h : ReservationKept s) :
    (flushKeysBody payload s).leaves ReservationKept := by
  refine leaves_checked fun _ => ?_
  have fits := reservationKept_iff.1 h
  refine reservationKept_iff.2 ⟨?_, fits.2⟩
  show 0 + downCount s ≤ 24
  omega

theorem wakeBody_reservationKept (payload : List Byte) (h : ReservationKept s) :
    (wakeBody payload s).leaves ReservationKept :=
  leaves_checked fun _ => leaves_ite (fun _ => h.returnToRun) fun _ => h

theorem submitSound_reservationKept (head : Fin 32) (due : Word) (urgent : Bool) (h : ReservationKept s) :
    (submitSound head due urgent s).leaves ReservationKept := by
  refine leaves_checked fun _ => leaves_checked fun _ => ?_
  split
  · trivial
  · exact h.of_keyLoad rfl

/-- R37: CONFIGURE SCAN, SET KEY, TAKE KEYS, FLUSH KEYS and WAKE act on the keys or their records; no other request does. -/
theorem requestBody_reservationKept {c : Instr} {kind : Byte} (hc : requestCode c = some kind) (payload : List Byte)
    (h : ReservationKept s) : (requestBody c payload s).leaves ReservationKept := by
  have kept {t : State} (e : keyLoad t = keyLoad s) : ReservationKept t := h.of_keyLoad e
  cases c with
  | configureScan => exact configureScanBody_reservationKept payload h
  | setKey => exact setKeyBody_reservationKept payload h
  | takeKeys => exact takeKeysBody_reservationKept payload h
  | flushKeys => exact flushKeysBody_reservationKept payload h
  | wake => exact wakeBody_reservationKept payload h
  | identify | echo | getStatus | clearCounters | restart | chainStatus | getKeyStates | readTime =>
    exact leaves_checked fun _ => kept rfl
  | clearCanvas | setBackdrop | setContrast | setBlink => exact leaves_checked fun _ => leaves_passed fun _ => kept rfl
  | configurePanel | stage | enterSleep => exact leaves_checked fun _ => leaves_checked fun _ => leaves_checked fun _ => kept rfl
  | enterDoze => exact leaves_checked fun _ => leaves_ite (fun _ => kept rfl) fun _ => leaves_checked fun _ => kept rfl
  | readCanvas | readAttributes | writeAtCursor | getView | selectViews | setDisplayMode | readDescriptor =>
    refine leaves_checked fun _ => ?_
    split
    · exact kept rfl
    · trivial
  | writeCanvas | writeAttributes | setView =>
    refine leaves_checked fun _ => ?_
    split
    · exact leaves_passed fun _ => kept rfl
    · trivial
  | loadDescriptor | freeDescriptor =>
    refine leaves_checked fun _ => ?_
    split
    · exact leaves_checked fun _ => kept rfl
    · trivial
  | setCursor | cancelChain =>
    refine leaves_checked fun _ => leaves_checked fun _ => ?_
    split
    · exact kept rfl
    · trivial
  | submitChain =>
    refine leaves_checked fun _ => ?_
    split
    · exact submitSound_reservationKept _ _ _ h
    · trivial
  | setAlarm =>
    refine leaves_checked fun _ => ?_
    split
    · trivial
    · exact leaves_checked fun _ => kept rfl
  | setLinkWatch =>
    refine leaves_checked fun _ => ?_
    split
    next action _ _ =>
      obtain ⟨count, e⟩ := setWatch_eq s (byteAt payload 0) action
      rw [e]
      exact kept rfl
    next => trivial
  | _ => cases hc

/-! ## Every command -/

theorem ReservationKept.effect (h : ReservationKept s) (c : Instr) : ReservationKept (effect c s) := by
  cases c with
  | linkDataWrite value => exact h.portWrite 0 value
  | linkDataRead => exact h.readLinkData
  | linkStatusRead => exact h.of_keyLoad rfl
  | resync value => exact h.portWrite 1 value
  | fullReset value => exact h.portWrite 1 value
  | noticeAcknowledge address value => exact h.portWrite address value
  | noticeMask address value => exact h.portWrite address value
  | ignoredPortWrite address value => exact h.portWrite address value
  | byteTaken => exact h.takingStep
  | gapTimeout => exact h.ite h.tickStep
  | huntingEnd => exact h.ite h.tickStep
  | posting => exact h.postingStep
  | sleepEntry => exact h.enterSleepIfReady
  | unknownKindRequest =>
    exact execute_leaves (fun _ _ ht => ht.of_keyLoad rfl) unknownKind (body := unknownKindBody) (fun _ _ _ => trivial) h
  | frameBoundary waited =>
    have waiting : ReservationKept (countWait waited s) := h.of_keyLoad (by cases waited <;> rfl)
    exact h.ite waiting.boundary
  | resumingBoundary => exact h.ite h.boundary
  | rowScanOut =>
    show ReservationKept (match dueRow s with
      | some r => scanRow r s
      | none => s)
    cases dueRow s with
    | some r => exact h.of_keyLoad rfl
    | none => exact h
  | tick => exact h.tickStep
  | scanPass longGhosts => exact h.scanPassStep longGhosts
  | repeatEvent longGhosts =>
    show ReservationKept (if repeatRunsOut longGhosts s then Machine.scanPassStep longGhosts s else s)
    exact h.ite (h.scanPassStep longGhosts)
  | alarmExpiry => exact h.ite h.tickStep
  | linkWatchExpiry => exact h.ite h.tickStep
  | wakeStep =>
    have resumed : ReservationKept (resumeEngine s) := by
      unfold resumeEngine
      exact h.ite (h.of_keyLoad rfl)
    exact h.ite resumed.returnToRun.closeStep
  | endOfStarting => exact h.ite h.returnToRun
  | powerOnReset => exact reset_reservationKept.of_keyLoad rfl
  | rstPinReset low =>
    show ReservationKept (rstChanges low s)
    unfold rstChanges
    split
    · exact reset_reservationKept.of_keyLoad rfl
    · exact h.of_keyLoad rfl
  | watchedLineChange key closed =>
    obtain ⟨contacts, armed, due, e⟩ := contactChanges_eq key closed s
    refine h.of_keyLoad ?_
    show keyLoad (contactChanges key closed s) = _
    rw [e]
    rfl
  | _ =>
    rw [effect_of_requestCode rfl]
    exact execute_leaves (fun _ _ ht => ht.of_keyLoad rfl) _ (fun payload _ ht => requestBody_reservationKept rfl payload ht) h

end

end Sys2Proof.Machine

namespace Sys2Proof.Proofs

open Sys2Proof.Machine

/-- Settles O51: every command keeps the reservation; taking the command off the queue touches no key. -/
theorem reservationIsKept : Obligations.ReservationIsKept := by
  intro s t h hstep
  cases hp : s.pending with
  | nil =>
    rw [step_of_pending_nil hp] at hstep
    cases hstep
    exact h
  | cons c rest =>
    rw [step_of_pending_cons hp, exec_eq_effect] at hstep
    cases hstep
    have taken : ReservationKept (s.withPending rest) := h.of_keyLoad rfl
    exact taken.effect c

end Sys2Proof.Proofs
end

section
/-! PROOFS. The statements about CONFIGURE SCAN and about the requests that read the key event queue and the key states (R36, R129, R130, R142, R143, R145,
R147, R153, R154). -/

namespace Sys2Proof.Machine

section
variable {s : State}

/-! ## CONFIGURE SCAN (R129) -/

theorem scanConfigOf_eq (d n p c delay interval : Byte) :
    scanConfigOf [d, n, p, c, delay, interval] =
      if (1 ≤ d.toNat ∧ d.toNat ≤ 10) ∧ (1 ≤ n.toNat ∧ n.toNat ≤ 6) ∧ (2 ≤ p.toNat ∧ p.toNat ≤ 32) ∧
          (1 ≤ c.toNat ∧ c.toNat ≤ 7) ∧ 10 ≤ delay.toNat ∧ 2 ≤ interval.toNat then
        some { drives := d.toNat, senses := n.toNat, period := p.toNat, settle := c.toNat, repeatDelay := delay.toNat,
               repeatInterval := interval.toNat }
      else none := by
  refine if_congr ?_ rfl rfl
  have hdelay := delay.isLt
  have hinterval := interval.isLt
  simp only [byteAt, List.getD_cons_zero, List.getD_cons_succ, Bool.and_eq_true, inRange_iff]
  omega

/-- R129, R130, R143: the whole effect of CONFIGURE SCAN where requests are executed: in Run or in Doze. -/
theorem configureScan_of_runs (config : ScanConfig) (hp : s.power.state = .run ∨ s.power.state = .doze) :
    configureScan config s =
      { s with
        keys := { s.keys with events := s.keys.events ++ forcedReleases s }
        scanner := { s.scanner with
          config := config, states := Vector.replicate 64 .idle, raw := 0, passTimer := config.period, owner := none, repeatTimer := none
          ghost := false, rollover := false
          armed := if s.power.state = .doze then openLines config s.pins.contacts else s.scanner.armed } } := by
  unfold configureScan
  rw [forcedRelease_eq]
  rcases hp with hp | hp <;> simp only [wakeScanning, setScanConfig, hp] <;> rfl

theorem configureScanBody_of_config {payload : List Byte} {config : ScanConfig} (hc : scanConfigOf payload = some config)
    (h : payload.length = 6) (s : State) : configureScanBody payload s = doneWith (configureScan config s) := by
  rw [configureScanBody, if_neg (not_not.2 h), hc]

theorem configureScanBody_of_no_config {payload : List Byte} (hc : scanConfigOf payload = none) (h : payload.length = 6)
    (s : State) : configureScanBody payload s = .fail .outOfRange [] := by
  rw [configureScanBody, if_neg (not_not.2 h), hc]

theorem configureScanBody_of_length {payload : List Byte} (h : payload.length ≠ 6) (s : State) :
    configureScanBody payload s = .fail .badSize [] := if_pos h

/-! ## TAKE KEYS and FLUSH KEYS (R153, R154) -/

theorem takeKeysBody_eq (n : Byte) (s : State) :
    takeKeysBody [n] s =
      if 1 ≤ n.toNat ∧ n.toNat ≤ 12 then takeEvents (min n.toNat s.keys.events.length) s else .fail .outOfRange [] := by
  rw [takeKeysBody, if_neg (by simp)]
  exact if_congr (inRange_iff 1 12 n) rfl rfl

/-- R147: the four bytes of a record, as its fields. -/
theorem eventBytes_eq :
    eventBytes = fun e => [eventKindByte e.kind, e.key, BitVec.ofNat 8 (e.time.toNat % 256), BitVec.ofNat 8 (e.time.toNat / 256)] := by
  funext e
  rw [eventBytes, wordBytes_eq]
  rfl

/-! ## GET KEY STATES (R145) -/

theorem keySetBytes_getLsbD (keys : KeySet) (k : Fin 64) :
    ((keySetBytes keys).getD (k.val / 8) 0).getLsbD (k.val % 8) = keys.getLsbD k.val := by
  have hbyte : k.val / 8 < 8 := by omega
  have hbit : k.val % 8 < 8 := by omega
  simp [keySetBytes, hbyte, hbit, Nat.div_add_mod]

theorem reportedKeys_getLsbD (s : State) (k : Fin 64) : (reportedKeys s).getLsbD k.val = s.scanner.states[k].reported := by
  rw [reportedKeys, keysWhere_getLsbD]
  simp [k.isLt]

/-- R145: the reported keys fill the first eight bytes, the raw closures the next eight. -/
theorem keyStateBytes_sets (s : State) {i : Nat} (hi : i < 8) :
    (keyStateBytes s).getD i 0 = (keySetBytes (reportedKeys s)).getD i 0 ∧
      (keyStateBytes s).getD (8 + i) 0 = (keySetBytes s.scanner.raw).getD i 0 := by
  have eight (keys : KeySet) : (keySetBytes keys).length = 8 := keySetBytes_length keys
  rw [keyStateBytes, List.append_assoc, List.getD_append _ _ _ _ (by rwa [eight]),
    List.getD_append_right _ _ _ _ (by rw [eight]; omega), eight, Nat.add_sub_cancel_left, List.getD_append _ _ _ _ (by rwa [eight])]
  exact ⟨rfl, rfl⟩

/-- R145: the last three bytes stand behind the two key sets. -/
theorem keyStateBytes_tail (s : State) (i : Nat) :
    (keyStateBytes s).getD (16 + i) 0 =
      [BitVec.ofNat 8 (downCount s), ownerByte s.scanner.owner,
        flagBit s.scanner.ghost 0 ||| flagBit s.scanner.rollover 1].getD i 0 := by
  have sets : (keySetBytes (reportedKeys s) ++ keySetBytes s.scanner.raw).length = 16 := by simp
  rw [keyStateBytes, List.getD_append_right _ _ _ _ (by omega), sets, Nat.add_sub_cancel_left]

end

end Sys2Proof.Machine

namespace Sys2Proof.Proofs

open Sys2Proof.Machine

/-- Settles O15: by the size of the payload and the ranges of its six fields. -/
theorem configureScanReplacesAll : Obligations.ConfigureScanReplacesAll := by
  intro tag payload s h
  split
  next d n p c delay interval =>
    have fields := scanConfigOf_eq d n p c delay interval
    split
    next legal =>
      rw [if_pos legal] at fields
      have effect := configureScan_of_runs (s := beginExecution s)
        { drives := d.toNat, senses := n.toNat, period := p.toNat, settle := c.toNat, repeatDelay := delay.toNat,
          repeatInterval := interval.toNat } h.runs
      have body := configureScanBody_of_config fields (by simp) (beginExecution s)
      rw [effect] at body
      exact exec_of_done rfl h body rfl rfl
    next illegal =>
      rw [if_neg illegal] at fields
      exact exec_of_outOfRange rfl h (configureScanBody_of_no_config fields (by simp) _)
  next other =>
    refine exec_of_badSize rfl h (configureScanBody_of_length (fun six => ?_) _)
    match payload, six with
    | [d, n, p, c, delay, interval], _ => exact other d n p c delay interval rfl

/-- Settles O17: each request by its size, and GET KEY STATES by the places of its bytes. -/
theorem keyQueueAndStatesAnswer : Obligations.KeyQueueAndStatesAnswer := by
  intro tag payload s
  refine ⟨fun h => ?_, fun h => ?_, fun h hne => ?_, fun h => ?_⟩
  · split
    next n =>
      have body := takeKeysBody_eq n (beginExecution s)
      split
      next legal =>
        rw [if_pos legal, takeEvents, eventBytes_eq] at body
        exact exec_of_done rfl h body rfl rfl
      next illegal =>
        rw [if_neg illegal] at body
        exact exec_of_outOfRange rfl h body
    next other =>
      refine exec_of_badSize rfl h (if_pos fun one => ?_)
      obtain ⟨n, rfl⟩ := List.length_eq_one_iff.1 one
      exact other n rfl
  · split
    next => exact exec_of_done rfl h rfl rfl rfl
    next other => exact exec_of_badSize rfl h (if_pos fun zero => other (List.length_eq_zero_iff.1 zero))
  · exact exec_of_badSize rfl h (if_pos fun zero => hne (List.length_eq_zero_iff.1 zero))
  · refine ⟨keyStateBytes s, exec_of_reading rfl h rfl, by simp [keyStateBytes], fun k => ?_, fun k => ?_,
      keyStateBytes_tail s 0, keyStateBytes_tail s 1, ?_⟩
    · obtain ⟨reported, -⟩ := keyStateBytes_sets s (i := k.val / 8) (by omega)
      rw [reported, keySetBytes_getLsbD, reportedKeys_getLsbD]
    · obtain ⟨-, raw⟩ := keyStateBytes_sets s (i := k.val / 8) (by omega)
      rw [raw, keySetBytes_getLsbD]
    · refine (keyStateBytes_tail s 2).trans ?_
      cases s.scanner.ghost <;> cases s.scanner.rollover <;> rfl

end Sys2Proof.Proofs
end

section
/-! PROOFS. The statement about the watched lines (R142, R143, R179): a line by the keys that stand on it, and a contact by the reading of its line
before and after. -/

namespace Sys2Proof.Machine

/-! ## Lines and their keys (R142, R143) -/

/-- R126, R143: an enabled key that wakes. -/
def keyWakes (scanner : Scanner) (k : Nat) : Bool := scanner.table[k]?.any fun r => r.enabled && r.wakes

/-- R143: a line is a wake line where it would read closed with the contacts of all keys that wake closed. -/
theorem wakeLine_eq (scanner : Scanner) (line : Nat) :
    wakeLine scanner line = lineClosed scanner.config (keysWhere (keyWakes scanner)) line := by
  unfold wakeLine lineClosed
  congr 1
  funext k
  rw [keysWhere_getLsbD, keyWakes]
  by_cases hk : k < 64 <;> simp [hk]

section
variable {line : Nat}

theorem wakeLine_iff {scanner : Scanner} (hd : scanner.config.drives ≤ 10) (hl : line < 10) :
    wakeLine scanner line = true ↔
      ∃ j : Fin 64, onLine scanner.config line j ∧ scanner.table[j].enabled = true ∧ scanner.table[j].wakes = true := by
  rw [wakeLine_eq, lineClosed_iff _ _ line hd hl]
  refine exists_congr fun j => and_congr_right fun _ => ?_
  rw [keysWhere_getLsbD, keyWakes]
  simp

theorem lineWatched_iff {c : ScanConfig} : lineWatched c line = true ↔ 6 ≤ line ∨ line < c.senses := by
  rw [lineWatched, Bool.or_eq_true, decide_eq_true_iff, decide_eq_true_iff, or_comm]

theorem lineOf_lt (k : Fin 64) : lineOf k.val < 10 := by
  unfold lineOf senseLine
  split <;> omega

/-! ## One contact (R142) -/

variable {s : State} {k : Fin 64} {closed : Bool}

theorem setContact_getLsbD (k j : Fin 64) (closed : Bool) (keys : KeySet) :
    (setContact k.val closed keys).getLsbD j.val = if j = k then closed else keys.getLsbD j.val := by
  by_cases e : j = k
  · subst e
    cases closed <;> simp [setContact]
  · have distinct : ¬ j.val = k.val := fun h => e (Fin.ext h)
    cases closed <;> simp [setContact, e, distinct]

/-- R142: a contact that closes opens no line, and one that opens closes none: a line whose reading changes reads as the contact moved. -/
theorem lineClosed_setContact_of_ne {c : ScanConfig} {keys : KeySet}
    (h : lineClosed c keys line ≠ lineClosed c (setContact k.val closed keys) line) :
    lineClosed c (setContact k.val closed keys) line = closed := by
  unfold lineClosed at h ⊢
  cases closed with
  | true =>
    refine Bool.eq_true_of_not_eq_false fun opened => h ?_
    rw [opened]
    simp only [List.any_eq_false, setContact, if_true, BitVec.getLsbD_or, Bool.or_eq_true] at opened ⊢
    exact fun j hj kept => opened j hj (.inl kept)
  | false =>
    refine Bool.eq_false_of_not_eq_true fun closes => h ?_
    rw [closes]
    simp only [List.any_eq_true, setContact, Bool.false_eq_true, if_false, BitVec.getLsbD_and, Bool.and_eq_true] at closes ⊢
    obtain ⟨j, hj, kept, -⟩ := closes
    exact ⟨j, hj, kept⟩

/-- The part after a key contact closed or opened, as far as the pins show. -/
def contactShown (k : Fin 64) (closed : Bool) (s : State) : State :=
  { s with pins := { s.pins with contacts := setContact k.val closed s.pins.contacts } }

/-- R142: outside wake scanning, on a line that is not watched, and where the line reads as before, only the contacts change. -/
theorem contactChanges_of_same_reading
    (h : wakeScanning s = false ∨ lineWatched s.scanner.config (lineOf k.val) = false ∨
      lineClosed s.scanner.config s.pins.contacts (lineOf k.val) =
        lineClosed s.scanner.config (setContact k.val closed s.pins.contacts) (lineOf k.val)) :
    contactChanges k closed s = contactShown k closed s := by
  refine if_neg ?_
  rcases h with h | h | h <;> simp [h]

theorem contactChanges_of_new_reading (hw : wakeScanning s = true) (hl : lineWatched s.scanner.config (lineOf k.val) = true)
    (h : lineClosed s.scanner.config s.pins.contacts (lineOf k.val) ≠
      lineClosed s.scanner.config (setContact k.val closed s.pins.contacts) (lineOf k.val)) :
    contactChanges k closed s = lineChanges (lineOf k.val) closed (contactShown k closed s) := by
  refine if_pos ?_
  simp [hw, hl, h]

/-- R142, R143, R179: a watched line that closes is unarmed; a wake step falls due where it was armed and is a wake line. -/
theorem lineChanges_closed (line : Nat) (s : State) :
    lineChanges line true s = { s with
      scanner := { s.scanner with armed := s.scanner.armed &&& ~~~BitVec.twoPow 10 line }
      power := { s.power with
        wakeDue := s.power.wakeDue || (s.scanner.armed.getLsbD line && wakeLine s.scanner line) } } := by
  unfold lineChanges
  rw [if_pos rfl]
  split
  next h => rw [h, Bool.or_true]; rfl
  next h => rw [Bool.eq_false_of_not_eq_true h, Bool.or_false]; rfl

end

end Sys2Proof.Machine

namespace Sys2Proof.Proofs

open Sys2Proof.Machine

/-- Settles O49: by the reading of the key's line before and after. -/
theorem watchedLineChangeArmsOrWakes : Obligations.WatchedLineChangeArmsOrWakes := by
  refine ⟨fun c contacts line hd _ hl => ?_, fun k closed s hd _ => ?_⟩
  · rw [openLines_getLsbD c contacts line hl, Bool.and_eq_true, lineWatched_iff, Bool.not_eq_true', ← Bool.not_eq_true,
      lineClosed_iff c contacts line hd hl]
  refine ⟨setContact k.val closed s.pins.contacts, fun j => setContact_getLsbD k j closed _, ?_⟩
  intro line watched wasClosed isClosed wakes shown
  have hl : line < 10 := lineOf_lt k
  have isWatched : lineWatched s.scanner.config (lineOf k.val) = true ↔ watched := lineWatched_iff
  have before : lineClosed s.scanner.config s.pins.contacts (lineOf k.val) = true ↔ wasClosed := lineClosed_iff _ _ line hd hl
  have after : lineClosed s.scanner.config (setContact k.val closed s.pins.contacts) (lineOf k.val) = true ↔ isClosed :=
    lineClosed_iff _ _ line hd hl
  have changed (hw : s.power.state = .doze ∨ s.power.state = .sleep) (watch : watched) (new : ¬ (wasClosed ↔ isClosed)) :
      lineClosed s.scanner.config (setContact k.val closed s.pins.contacts) (lineOf k.val) = closed ∧
        exec (.watchedLineChange k closed) s = .next (lineChanges line closed shown) := by
    have reading : lineClosed s.scanner.config s.pins.contacts (lineOf k.val) ≠
        lineClosed s.scanner.config (setContact k.val closed s.pins.contacts) (lineOf k.val) := fun same =>
      new (before.symm.trans ((Bool.eq_iff_iff.1 same).trans after))
    exact ⟨lineClosed_setContact_of_ne reading,
      congrArg Host.Outcome.next (contactChanges_of_new_reading ((wakeScanning_iff s).2 hw) (isWatched.2 watch) reading)⟩
  refine ⟨fun same => ?_, fun hw watch was notIs => ?_, fun hw watch notWas is => ?_⟩
  · refine congrArg Host.Outcome.next (contactChanges_of_same_reading ?_)
    rcases same with ⟨notDoze, notSleep⟩ | unwatched | same
    · exact .inl (Bool.eq_false_of_not_eq_true fun hw => ((wakeScanning_iff s).1 hw).elim notDoze notSleep)
    · exact .inr (.inl (Bool.eq_false_of_not_eq_true (mt isWatched.1 unwatched)))
    · exact .inr (.inr (Bool.eq_iff_iff.2 (before.trans (same.trans after.symm))))
  · obtain ⟨moved, step⟩ := changed hw watch fun same => notIs (same.1 was)
    have opens : closed = false := moved.symm.trans (Bool.eq_false_of_not_eq_true (mt after.1 notIs))
    subst opens
    exact step
  · obtain ⟨moved, step⟩ := changed hw watch fun same => notWas (same.2 is)
    have closes : closed = true := moved.symm.trans (after.2 is)
    subst closes
    refine ⟨s.power.wakeDue || (s.scanner.armed.getLsbD line && wakeLine s.scanner line), ?_, ?_⟩
    · rw [Bool.or_eq_true, Bool.and_eq_true, wakeLine_iff hd hl]
    · rw [step, lineChanges_closed]

end Sys2Proof.Proofs
end

section
/-! PROOFS. The release side of a scan pass in one state (R133, R134, R138, R140): the keys that were let go in a list of keys, and what their releases
left behind. -/

namespace Sys2Proof.Machine

/-! ## The ghost check (R133, step 1) -/

theorem anyAmbiguous_iff (raw : KeySet) :
    anyAmbiguous raw = true ↔ ∃ k : Fin 64, raw.getLsbD k.val = true ∧ cornered raw k := by
  simp only [anyAmbiguous, List.any_eq_true, List.mem_range, Bool.and_eq_true, ambiguous_iff]
  constructor
  · exact fun ⟨k, hk, closed, corners⟩ => ⟨⟨k, by omega⟩, closed, corners⟩
  · exact fun ⟨k, closed, corners⟩ => ⟨k.val, corners.1, closed, corners⟩

/-- R133, step 1: the ghost episode as the check leaves it in a pass that reads these keys closed. -/
def ghostLeft (closed : KeySet) (s : State) : Bool := s.scanner.ghost && anyAmbiguous (sampled s.scanner.config closed)

theorem ghostLeft_iff (closed : KeySet) (s : State) : ghostLeft closed s = true ↔ ghostGoesOn closed s := by
  rw [ghostLeft, Bool.and_eq_true, anyAmbiguous_iff]
  exact and_congr_right fun _ => exists_congr fun k => and_congr_left fun _ => sampled_getLsbD ..

/-! ## The keys read open (R134) -/

section
variable (closed : KeySet) (s : State) (l : List (Fin 64))

/-- R134: an enabled key that the pass reads open. -/
abbrev readsOpen (k : Fin 64) : Prop := s.scanner.table[k].enabled = true ∧ ¬ readsClosed s.scanner.config closed k

/-- R134: those of the keys that their open reading lets go. -/
def lettingGo : List (Fin 64) :=
  l.filter fun k => decide (readsOpen closed s k) && letsGo s.scanner.config.settle s.scanner.states[k]

/-- R134: the key states after the open readings among these keys. -/
def openedStates : Vector KeyState 64 :=
  Vector.ofFn fun k => if k ∈ l ∧ readsOpen closed s k then openedState s.scanner.config.settle s.scanner.states[k] else s.scanner.states[k]

/-- R133, step 2: the part after the release side has come through these keys. -/
def releasedOver (ghost : Bool) : State :=
  { s with
    keys := { s.keys with
      events := s.keys.events ++
        (lettingGo closed s l).map fun k => { kind := .release, key := BitVec.ofNat 8 k.val, time := s.time.ticks } }
    scanner := { s.scanner with
      raw := sampled s.scanner.config closed
      passesDue := s.scanner.passesDue - 1
      ghost := ghost
      states := openedStates closed s l
      owner := if ∃ k ∈ lettingGo closed s l, s.scanner.owner = some k then none else s.scanner.owner
      repeatTimer := if ∃ k ∈ lettingGo closed s l, s.scanner.owner = some k then none else s.scanner.repeatTimer
      rollover :=
        if lettingGo closed s l ≠ [] ∧ (openedStates closed s l).toList.countP KeyState.reported < 8 then false
        else s.scanner.rollover } }

variable {closed s l} {k : Fin 64} {ghost : Bool}

theorem openedStates_getElem (j : Fin 64) :
    (openedStates closed s l)[j] =
      if j ∈ l ∧ readsOpen closed s j then openedState s.scanner.config.settle s.scanner.states[j] else s.scanner.states[j] :=
  Vector.getElem_ofFn j.isLt

theorem mem_lettingGo {j : Fin 64} :
    j ∈ lettingGo closed s l ↔ j ∈ l ∧ readsOpen closed s j ∧ letsGo s.scanner.config.settle s.scanner.states[j] = true := by
  rw [lettingGo, List.mem_filter, Bool.and_eq_true, decide_eq_true_iff]

/-- R133, steps 1 and 2: with every key come through. -/
theorem releasedOver_finRange (closed : KeySet) (s : State) (ghost : Bool) :
    releasedOver closed s (List.finRange 64) ghost = releasedPart closed ghost s := by
  simp only [releasedOver, releasedPart, lettingGo, openedStates, letsGo, List.mem_finRange, true_and, Bool.and_assoc]
  rfl

/-- R132, R133: where no key is let go and no other key moves, the release side only samples the lines. -/
theorem releasedOver_of_none (released : lettingGo closed s l = []) (states : openedStates closed s l = s.scanner.states) :
    releasedOver closed s l ghost = { s with
      scanner := { s.scanner with
        raw := sampled s.scanner.config closed, passesDue := s.scanner.passesDue - 1, ghost := ghost } } := by
  unfold releasedOver
  rw [released, states]
  simp

/-! ## One key more -/

theorem lettingGo_snoc_of_not_open (hk : ¬ readsOpen closed s k) : lettingGo closed s (l ++ [k]) = lettingGo closed s l := by
  rw [lettingGo, List.filter_append, List.filter_cons_of_neg (by rw [decide_eq_false hk]; exact Bool.false_ne_true)]
  exact List.append_nil _

theorem lettingGo_snoc_of_open (hk : readsOpen closed s k) :
    lettingGo closed s (l ++ [k]) =
      lettingGo closed s l ++ if letsGo s.scanner.config.settle s.scanner.states[k] = true then [k] else [] := by
  rw [lettingGo, List.filter_append, List.filter_cons, decide_eq_true hk, Bool.true_and]
  rfl

theorem openedStates_snoc_of_not_open (hk : ¬ readsOpen closed s k) :
    openedStates closed s (l ++ [k]) = openedStates closed s l := by
  unfold openedStates
  congr 1
  funext j
  refine if_congr (and_congr_left fun hj => ?_) rfl rfl
  have distinct : j ≠ k := fun e => hk (e ▸ hj)
  simp [distinct]

theorem openedStates_snoc_of_open (hk : readsOpen closed s k) :
    openedStates closed s (l ++ [k]) =
      (openedStates closed s l).set k (openedState s.scanner.config.settle s.scanner.states[k]) := by
  refine Vector.ext fun i hi => ?_
  have after := openedStates_getElem (closed := closed) (s := s) (l := l ++ [k]) ⟨i, hi⟩
  have before := openedStates_getElem (closed := closed) (s := s) (l := l) ⟨i, hi⟩
  rw [Vector.getElem_set]
  by_cases e : k.val = i
  · obtain rfl : k = ⟨i, hi⟩ := Fin.ext e
    rw [if_pos rfl]
    exact after.trans (if_pos ⟨by simp, hk⟩)
  · rw [if_neg e]
    refine after.trans (Eq.trans ?_ before.symm)
    have distinct : (⟨i, hi⟩ : Fin 64) ≠ k := fun h => e (congrArg Fin.val h).symm
    simp only [List.mem_append, List.mem_singleton, distinct, or_false]

/-- R134, R140: what the owner's release clears stays cleared, whoever is released next. -/
theorem clear_twice {α : Type} (cleared gone : Prop) [Decidable cleared] [Decidable gone] (owner : Option (Fin 64)) (k : Fin 64)
    (x : Option α) :
    (if gone ∧ (if cleared then none else owner) = some k then none else (if cleared then none else x)) =
      if cleared ∨ (gone ∧ owner = some k) then none else x := by
  by_cases h : cleared <;> simp [h]

/-- R138: the Down count only falls on the release side, so the last release alone says whether the rollover episode ended. -/
theorem end_twice (before gone : Prop) [Decidable before] [Decidable gone] {n m : Nat}
    (count : m + (if gone then 1 else 0) = n) (rollover : Bool) :
    (if gone ∧ m < 8 then false else (if before ∧ n < 8 then false else rollover)) =
      if (before ∨ gone) ∧ m < 8 then false else rollover := by
  by_cases hg : gone
  · by_cases hm : m < 8
    · simp [hg, hm]
    · have hn : ¬ n < 8 := fun h => hm ((Nat.le.intro count).trans_lt h)
      simp [hm, hn]
  · rw [if_neg hg, Nat.add_zero] at count
    simp [hg, count]

/-- R134, R140: whether the owner is let go, with one key more. -/
theorem owner_lettingGo_snoc (hk : readsOpen closed s k) :
    (∃ j ∈ lettingGo closed s (l ++ [k]), s.scanner.owner = some j) ↔
      (∃ j ∈ lettingGo closed s l, s.scanner.owner = some j) ∨
        (letsGo s.scanner.config.settle s.scanner.states[k] = true ∧ s.scanner.owner = some k) := by
  rw [lettingGo_snoc_of_open hk]
  generalize letsGo s.scanner.config.settle s.scanner.states[k] = gone
  cases gone <;> simp [or_and_right, exists_or]

/-- R138: whether any key is let go, with one key more. -/
theorem lettingGo_snoc_ne_nil (hk : readsOpen closed s k) :
    lettingGo closed s (l ++ [k]) ≠ [] ↔
      lettingGo closed s l ≠ [] ∨ letsGo s.scanner.config.settle s.scanner.states[k] = true := by
  rw [lettingGo_snoc_of_open hk]
  generalize letsGo s.scanner.config.settle s.scanner.states[k] = gone
  cases gone <;> simp

/-- R134: the records of the releases, with one key more. -/
theorem map_lettingGo_snoc (hk : readsOpen closed s k) :
    (lettingGo closed s (l ++ [k])).map (fun j => KeyEvent.mk .release (BitVec.ofNat 8 j.val) s.time.ticks) =
      (lettingGo closed s l).map (fun j => KeyEvent.mk .release (BitVec.ofNat 8 j.val) s.time.ticks) ++
        if letsGo s.scanner.config.settle s.scanner.states[k] = true then
          [KeyEvent.mk .release (keyByte k) s.time.ticks] else [] := by
  rw [lettingGo_snoc_of_open hk, List.map_append]
  generalize letsGo s.scanner.config.settle s.scanner.states[k] = gone
  cases gone <;> simp [keyByte]

/-- Section 7.5: the Down count after one more open reading. -/
theorem reported_openedStates_snoc (hk : readsOpen closed s k) (hl : k ∉ l) :
    (openedStates closed s (l ++ [k])).toList.countP KeyState.reported +
        (if letsGo s.scanner.config.settle s.scanner.states[k] = true then 1 else 0) =
      (openedStates closed s l).toList.countP KeyState.reported := by
  have count := countP_set KeyState.reported (openedStates closed s l) k (openedState s.scanner.config.settle s.scanner.states[k])
  have state : (openedStates closed s l)[k] = s.scanner.states[k] := (openedStates_getElem k).trans (if_neg fun h => hl h.1)
  have opened := reported_of_opened s.scanner.config.settle s.scanner.states[k]
  rw [state, ← openedStates_snoc_of_open hk] at count
  unfold letsGo
  cases hr : s.scanner.states[k].reported <;>
    cases ho : (openedState s.scanner.config.settle s.scanner.states[k]).reported <;> simp_all

/-- R134, R138, R140: one more key read open. -/
theorem readOpen_releasedOver (hk : readsOpen closed s k) (hl : k ∉ l) :
    readOpen k (releasedOver closed s l ghost) = releasedOver closed s (l ++ [k]) ghost := by
  have state : (releasedOver closed s l ghost).scanner.states[k] = s.scanner.states[k] :=
    (openedStates_getElem k).trans (if_neg fun h => hl h.1)
  have count := reported_openedStates_snoc hk hl
  have cleared {α : Type} (x : Option α) :=
    (clear_twice _ _ s.scanner.owner k x).trans (if_congr (owner_lettingGo_snoc (l := l) hk).symm rfl rfl)
  have episode := (end_twice _ _ count s.scanner.rollover).trans
    (if_congr (and_congr_left' (lettingGo_snoc_ne_nil (l := l) hk).symm) rfl rfl)
  rw [readOpen_eq, state]
  unfold releasedOver
  simp only [map_lettingGo_snoc hk, cleared, episode, List.append_assoc, ← openedStates_snoc_of_open hk]

/-! ## The whole side -/

/-- R133, step 2: one key on the release side. -/
def openStep (t : State) (k : Fin 64) : State :=
  if t.scanner.table[k].enabled && !t.scanner.raw.getLsbD k.val then readOpen k t else t

theorem releaseSide_eq (s : State) : releaseSide s = (List.finRange 64).foldl openStep s := rfl

theorem readsOpen_iff :
    (s.scanner.table[k].enabled && !(sampled s.scanner.config closed).getLsbD k.val) = true ↔ readsOpen closed s k := by
  rw [Bool.and_eq_true, Bool.not_eq_true', ← Bool.not_eq_true, sampled_getLsbD]

theorem openStep_releasedOver (hl : k ∉ l) :
    openStep (releasedOver closed s l ghost) k = releasedOver closed s (l ++ [k]) ghost := by
  have table : (releasedOver closed s l ghost).scanner.table = s.scanner.table := by simp only [releasedOver]
  have raw : (releasedOver closed s l ghost).scanner.raw = sampled s.scanner.config closed := rfl
  rw [openStep, table, raw]
  split
  next h => exact readOpen_releasedOver (readsOpen_iff.1 h) hl
  next h =>
    have hk := mt readsOpen_iff.2 h
    rw [releasedOver, releasedOver, lettingGo_snoc_of_not_open hk, openedStates_snoc_of_not_open hk]

/-- R133, step 2: the release side comes through the keys one after another. -/
theorem foldl_openStep (hl : l.Nodup) : l.foldl openStep (releasedOver closed s [] ghost) = releasedOver closed s l ghost := by
  induction l using List.reverseRecOn with
  | nil => rfl
  | append_singleton l k ih =>
    obtain ⟨hl, -, apart⟩ := List.nodup_append.1 hl
    have fresh : k ∉ l := fun hk => apart k hk k (List.mem_singleton_self k) rfl
    rw [List.foldl_append, ih hl]
    exact openStep_releasedOver fresh

/-- R132, R133, step 1: the part as the release side finds it. -/
theorem ghostCheck_eq (longGhosts : KeySet) (s : State) :
    ghostCheck (samplePass longGhosts (takePass s)) =
      releasedOver (linesShow longGhosts s) s [] (ghostLeft (linesShow longGhosts s) s) := by
  have states : openedStates (linesShow longGhosts s) s [] = s.scanner.states := by
    refine Vector.ext fun i hi => ?_
    exact (openedStates_getElem ⟨i, hi⟩).trans (if_neg fun h => nomatch h.1)
  rw [releasedOver_of_none rfl states, ghostLeft]
  cases h : anyAmbiguous (Machine.sampled s.scanner.config (linesShow longGhosts s)) with
  | true =>
    rw [Bool.and_true]
    exact if_pos h
  | false =>
    rw [Bool.and_false]
    exact if_neg (Bool.eq_false_iff.1 h)

/-- R133, steps 1 and 2: a pass that is taken, up to its press side. -/
theorem passToRelease_takePass (longGhosts : KeySet) (s : State) :
    passToRelease longGhosts (takePass s) =
      releasedPart (linesShow longGhosts s) (ghostLeft (linesShow longGhosts s) s) s := by
  rw [passToRelease, ghostCheck_eq, releaseSide_eq, ← releasedOver_finRange]
  exact foldl_openStep (List.nodup_finRange 64)

end

end Sys2Proof.Machine
end

section
/-! PROOFS. The press side and the repeat of a scan pass (R133, R135 to R141): what each key's reading moves, and that beyond the key states, the repeat,
the episodes, the queue and what a lost event counts nothing is touched. -/

namespace Sys2Proof.Machine

/-! ## What the later parts of a pass may touch -/

/-- The state without what a closed reading and the repeat touch: beside what an offered event touches, the key states, the repeat and the episodes. -/
def beyondPress (s : State) : State :=
  { s with
    scanner := { s.scanner with
      states := Vector.replicate 64 .idle, owner := none, repeatTimer := none, ghost := false, rollover := false }
    keys := defaultKeyQueue
    counters := { s.counters with lostKey := 0 }
    notices := { s.notices with sticky := 0 } }

/-- What a part of a pass does outside the key states: these events join the queue, at the time of the pass, and of the notices KEY_LOSS alone
may be set. -/
structure PassMoves (new : List KeyEvent) (s t : State) : Prop where
  frame : beyondPress t = beyondPress s
  events : t.keys.events = s.keys.events ++ new
  times : ∀ e ∈ new, e.time = s.time.ticks
  sticky : ∀ n, n < 10 → t.notices.sticky.getLsbD n = s.notices.sticky.getLsbD n

section
variable {new more : List KeyEvent} {s t u : State} {k : Fin 64}

theorem PassMoves.ticks (h : PassMoves new s t) : t.time.ticks = s.time.ticks := congrArg (fun u => u.time.ticks) h.frame
theorem PassMoves.table (h : PassMoves new s t) : t.scanner.table = s.scanner.table := congrArg (fun u => u.scanner.table) h.frame
theorem PassMoves.config (h : PassMoves new s t) : t.scanner.config = s.scanner.config := congrArg (fun u => u.scanner.config) h.frame
theorem PassMoves.raw (h : PassMoves new s t) : t.scanner.raw = s.scanner.raw := congrArg (fun u => u.scanner.raw) h.frame

theorem PassMoves.trans (h : PassMoves new s t) (h' : PassMoves more t u) : PassMoves (new ++ more) s u where
  frame := h'.frame.trans h.frame
  events := by rw [h'.events, h.events, List.append_assoc]
  times e he := (List.mem_append.1 he).elim (h.times e) fun hm => (h'.times e hm).trans h.ticks
  sticky n hn := (h'.sticky n hn).trans (h.sticky n hn)

/-- A part that moves key states, the repeat and the episodes and offers nothing. -/
theorem PassMoves.of_quiet (frame : beyondPress t = beyondPress s) (keys : t.keys = s.keys) (notices : t.notices = s.notices) :
    PassMoves [] s t where
  frame := frame
  events := by rw [keys, List.append_nil]
  times := nofun
  sticky n _ := by rw [notices]

/-- R149, R151, R152: an event that a pass offers. -/
theorem offer_moves (kind : EventKind) (key : Byte) (s : State) :
    ∃ new, PassMoves new s (offer kind key s.time.ticks s) ∧
      (admits kind s.time.ticks s = true → { kind := kind, key := key, time := s.time.ticks } ∈ new) := by
  obtain ⟨markers, hmarkers, lost⟩ := queueLost_events s.time.ticks s
  cases h : admits kind s.time.ticks s with
  | true =>
    rw [offer_of_admitted h]
    refine ⟨markers ++ [_], ⟨rfl, ?_, fun e he => ?_, fun _ _ => rfl⟩, fun _ => List.mem_append_right _ (List.mem_singleton_self _)⟩
    · simp only [hmarkers, List.append_assoc]
    · rcases List.mem_append.1 he with hm | hm
      · exact (lost e hm).2
      · rw [List.mem_singleton.1 hm]
  | false =>
    rw [offer_of_refused h]
    refine ⟨markers, ⟨rfl, hmarkers, fun e he => (lost e he).2, fun n hn => ?_⟩, nofun⟩
    have bit : Notice.keyLoss.word.getLsbD n = false := by
      rw [Notice.word, BitVec.getLsbD_twoPow]
      simp [Notice.bit, Nat.ne_of_gt hn]
    show (s.notices.sticky ||| Notice.keyLoss.word).getLsbD n = _
    rw [BitVec.getLsbD_or, bit, Bool.or_false]

/-! ## One press-side transition (R136 to R140) -/

/-- R137, R138: the key is Suppressed, with the two episodes as they are then. -/
def heldKey (k : Fin 64) (ghost rollover : Bool) (s : State) : State :=
  { s with scanner := { s.scanner with states := s.scanner.states.set k (.suppressed 0), ghost := ghost, rollover := rollover } }

theorem suppressGhost_eq (k : Fin 64) (s : State) :
    suppressGhost k s =
      if s.scanner.ghost then heldKey k s.scanner.ghost s.scanner.rollover s
      else offer .ghost (keyByte k) s.time.ticks (heldKey k true s.scanner.rollover s) := rfl

theorem suppressRollover_eq (k : Fin 64) (s : State) :
    suppressRollover k s =
      if s.scanner.rollover then heldKey k s.scanner.ghost s.scanner.rollover s
      else offer .rollover (keyByte k) s.time.ticks (heldKey k s.scanner.ghost true s) := rfl

/-- How a press-side transition leaves its key: Down behind its PRESS, or Suppressed. -/
def PressOutcome (k : Fin 64) (s : State) (new : List KeyEvent) (st : KeyState) : Prop :=
  (st = .down ∧ { kind := .press, key := keyByte k, time := s.time.ticks } ∈ new) ∨ st = .suppressed 0

/-- A part that moves this key so, and no other. -/
def MovesKey (k : Fin 64) (s t : State) : Prop :=
  ∃ new st, PassMoves new s t ∧ t.scanner.states = s.scanner.states.set k st ∧ PressOutcome k s new st

theorem heldKey_quiet (k : Fin 64) (ghost rollover : Bool) (s : State) : PassMoves [] s (heldKey k ghost rollover s) :=
  .of_quiet rfl rfl rfl

theorem heldKey_moves (k : Fin 64) (ghost rollover : Bool) (s : State) : MovesKey k s (heldKey k ghost rollover s) :=
  ⟨[], .suppressed 0, heldKey_quiet k ghost rollover s, rfl, .inr rfl⟩

theorem offer_heldKey_moves (kind : EventKind) (k : Fin 64) (ghost rollover : Bool) (s : State) :
    MovesKey k s (offer kind (keyByte k) s.time.ticks (heldKey k ghost rollover s)) := by
  obtain ⟨new, moves, -⟩ := offer_moves kind (keyByte k) (heldKey k ghost rollover s)
  refine ⟨[] ++ new, .suppressed 0, (heldKey_quiet k ghost rollover s).trans moves, ?_, .inr rfl⟩
  rw [offer_scanner]
  rfl

theorem setKeyState_quiet (k : Fin 64) (st : KeyState) (s : State) : PassMoves [] s (setKeyState k st s) := .of_quiet rfl rfl rfl

theorem becomeDown_quiet (k : Fin 64) (s : State) : PassMoves [] s (becomeDown k s) := .of_quiet rfl rfl rfl

theorem offerPress_moves (k : Fin 64) (s : State) : MovesKey k s (offerPress k s) := by
  obtain ⟨new, moves, admitted⟩ := offer_moves .press (keyByte k) s
  unfold offerPress
  split
  next h =>
    refine ⟨new ++ [], .down, moves.trans (becomeDown_quiet ..), ?_, .inl ⟨rfl, List.mem_append_left _ (admitted h)⟩⟩
    rw [becomeDown, setKeyState, offer_scanner]
  next =>
    refine ⟨new ++ [], .suppressed 0, moves.trans (setKeyState_quiet ..), ?_, .inr rfl⟩
    rw [setKeyState, offer_scanner]

/-- R136 to R139: the key becomes Down behind its PRESS, or is Suppressed; no other key moves. -/
theorem pressTransition_moves (k : Fin 64) (s : State) : MovesKey k s (pressTransition k s) := by
  by_cases ambiguous : cornered s.scanner.raw k
  · rw [pressTransition_of_ambiguous ambiguous, suppressGhost_eq]
    split
    · exact heldKey_moves ..
    · exact offer_heldKey_moves ..
  by_cases below : downCount s < 8
  · rw [pressTransition_of_offered ambiguous below]
    exact offerPress_moves k s
  · rw [pressTransition_of_rollover ambiguous (Nat.not_lt.1 below), suppressRollover_eq]
    split
    · exact heldKey_moves ..
    · exact offer_heldKey_moves ..

/-- R135: all that a closed reading of an enabled key does. -/
theorem readClosed_eq (k : Fin 64) (s : State) :
    readClosed k s =
      if settlesDown s.scanner.config.settle s.scanner.states[k] then pressTransition k s
      else setKeyState k (closedState s.scanner.states[k]) s := by
  unfold readClosed
  split
  next h => simp only [h, settlesDown, decide_eq_true_eq, closedState]; rfl
  next n h => simp only [h, settlesDown, decide_eq_true_eq, closedState]; rfl
  next h =>
    have same : s.scanner.states.set k .down = s.scanner.states := by
      conv_lhs => rw [← h]
      exact Vector.set_getElem_self _
    simp only [h, settlesDown, closedState, setKeyState, same, Bool.false_eq_true, if_false]
  next n h => simp only [h, settlesDown, closedState, Bool.false_eq_true, if_false]
  next m h => simp only [h, settlesDown, closedState, Bool.false_eq_true, if_false]

end

/-! ## The keys read closed (R135) -/

section
variable {closed : KeySet} {s t u : State} {l : List (Fin 64)} {k : Fin 64} {ghost : Bool} {new more : List KeyEvent}

/-- R135: one key on the press side, by its state before the pass. -/
def pressKey (closed : KeySet) (s u : State) (k : Fin 64) : State :=
  if s.scanner.table[k].enabled = true ∧ readsClosed s.scanner.config closed k then
    if settlesDown s.scanner.config.settle s.scanner.states[k] then pressTransition k u
    else setKeyState k (closedState s.scanner.states[k]) u
  else u

theorem pressedPart_eq (closed : KeySet) (ghost : Bool) (s : State) :
    pressedPart closed ghost s = (List.finRange 64).foldl (pressKey closed s) (releasedPart closed ghost s) := rfl

/-- R135: how a key stands behind its turn on the press side, whose events are `new`. -/
structure PressMoves (closed : KeySet) (s : State) (new : List KeyEvent) (k : Fin 64) (before after : KeyState) : Prop where
  other : ¬ (s.scanner.table[k].enabled = true ∧ readsClosed s.scanner.config closed k) → after = before
  kept : s.scanner.table[k].enabled = true → readsClosed s.scanner.config closed k →
    settlesDown s.scanner.config.settle s.scanner.states[k] = false → after = closedState s.scanner.states[k]
  settled : s.scanner.table[k].enabled = true → readsClosed s.scanner.config closed k →
    settlesDown s.scanner.config.settle s.scanner.states[k] = true →
    PressOutcome k s new after

theorem PressMoves.mono {before after : KeyState} (h : PressMoves closed s new k before after) (hn : ∀ e ∈ new, e ∈ more) :
    PressMoves closed s more k before after where
  other := h.other
  kept := h.kept
  settled he hr hs := (h.settled he hr hs).imp_left (And.imp_right (hn _))

theorem pressKey_moves (closed : KeySet) (k : Fin 64) (ticks : u.time.ticks = s.time.ticks) :
    ∃ new st, PassMoves new u (pressKey closed s u k) ∧ (pressKey closed s u k).scanner.states = u.scanner.states.set k st ∧
      PressMoves closed s new k u.scanner.states[k] st := by
  unfold pressKey
  split
  next hr =>
    split
    next hs =>
      obtain ⟨new, st, moves, states, pressed⟩ := pressTransition_moves k u
      rw [PressOutcome, ticks] at pressed
      exact ⟨new, st, moves, states, ⟨absurd hr, fun _ _ h => absurd hs (Bool.eq_false_iff.1 h), fun _ _ _ => pressed⟩⟩
    next hs =>
      exact ⟨[], _, setKeyState_quiet .., rfl, ⟨absurd hr, fun _ _ _ => rfl, fun _ _ h => absurd h hs⟩⟩
  next hr =>
    exact ⟨[], u.scanner.states[k], .of_quiet rfl rfl rfl, (Vector.set_getElem_self _).symm,
      ⟨fun _ => rfl, fun he hc => absurd ⟨he, hc⟩ hr, fun he hc => absurd ⟨he, hc⟩ hr⟩⟩

/-- R133, step 3, in a list of keys: each key of the list moves by its reading, and no other key does. -/
theorem foldl_pressKey_moves (hl : l.Nodup) (ticks : u.time.ticks = s.time.ticks) :
    ∃ new, PassMoves new u (l.foldl (pressKey closed s) u) ∧
      (∀ j, j ∉ l → (l.foldl (pressKey closed s) u).scanner.states[j] = u.scanner.states[j]) ∧
      ∀ j ∈ l, PressMoves closed s new j u.scanner.states[j] (l.foldl (pressKey closed s) u).scanner.states[j] := by
  induction l generalizing u with
  | nil => exact ⟨[], .of_quiet rfl rfl rfl, fun _ _ => rfl, nofun⟩
  | cons k l ih =>
    obtain ⟨fresh, hl⟩ := List.nodup_cons.1 hl
    obtain ⟨new, st, moves, states, pressed⟩ := pressKey_moves closed k ticks
    obtain ⟨more, moves', others, each⟩ := ih hl (moves.ticks.trans ticks)
    have apart {j : Fin 64} (h : j ≠ k) : (pressKey closed s u k).scanner.states[j] = u.scanner.states[j] := by
      rw [states]
      exact Vector.getElem_set_ne _ _ fun e => h (Fin.ext e.symm)
    have here : (pressKey closed s u k).scanner.states[k] = st := by
      rw [states]
      exact Vector.getElem_set_self _
    refine ⟨new ++ more, moves.trans moves', fun j hj => ?_, fun j hj => ?_⟩
    · obtain ⟨hk, hj⟩ := not_or.1 (mt List.mem_cons.2 hj)
      exact (others j hj).trans (apart hk)
    · rcases List.mem_cons.1 hj with rfl | hj
      · have final : (l.foldl (pressKey closed s) (pressKey closed s u j)).scanner.states[j] = st := (others j fresh).trans here
        rw [List.foldl_cons, final]
        exact pressed.mono fun e => List.mem_append_left _
      · have hk : j ≠ k := fun e => fresh (e ▸ hj)
        rw [← apart hk]
        exact (each j hj).mono fun e => List.mem_append_right _

/-! ## The press side of the model -/

/-- R133, step 3: one key on the press side. -/
def pressStep (t : State) (k : Fin 64) : State :=
  if t.scanner.table[k].enabled && t.scanner.raw.getLsbD k.val then readClosed k t else t

theorem pressSide_eq (s : State) : pressSide s = (List.finRange 64).foldl pressStep s := rfl

/-- What the press side reads of the part, up to the keys still to come, is as it was before the pass. -/
structure PressReady (closed : KeySet) (s : State) (l : List (Fin 64)) (u : State) : Prop where
  ticks : u.time.ticks = s.time.ticks
  table : u.scanner.table = s.scanner.table
  config : u.scanner.config = s.scanner.config
  raw : u.scanner.raw = sampled s.scanner.config closed
  states : ∀ k ∈ l, readsClosed s.scanner.config closed k → u.scanner.states[k] = s.scanner.states[k]

theorem pressStep_eq (h : PressReady closed s l u) (hk : k ∈ l) : pressStep u k = pressKey closed s u k := by
  have reads : (s.scanner.table[k].enabled && (sampled s.scanner.config closed).getLsbD k.val) = true ↔
      s.scanner.table[k].enabled = true ∧ readsClosed s.scanner.config closed k := by
    rw [Bool.and_eq_true, sampled_getLsbD]
  rw [pressStep, h.table, h.raw, pressKey]
  by_cases hr : s.scanner.table[k].enabled = true ∧ readsClosed s.scanner.config closed k
  · rw [if_pos (reads.2 hr), if_pos hr, readClosed_eq, h.config, h.states k hk hr.2]
  · rw [if_neg (mt reads.1 hr), if_neg hr]

theorem foldl_pressStep (hl : l.Nodup) (h : PressReady closed s l u) :
    l.foldl pressStep u = l.foldl (pressKey closed s) u := by
  induction l generalizing u with
  | nil => rfl
  | cons k l ih =>
    obtain ⟨fresh, hl⟩ := List.nodup_cons.1 hl
    rw [List.foldl_cons, List.foldl_cons, pressStep_eq h (List.mem_cons_self ..)]
    obtain ⟨new, st, moves, states, -⟩ := pressKey_moves closed k h.ticks
    refine ih hl ⟨moves.ticks.trans h.ticks, moves.table.trans h.table, moves.config.trans h.config, moves.raw.trans h.raw,
      fun j hj hr => ?_⟩
    rw [states]
    exact (Vector.getElem_set_ne _ _ fun e => fresh ((Fin.ext e : k = j) ▸ hj)).trans (h.states j (List.mem_cons_of_mem _ hj) hr)

end

end Sys2Proof.Machine
end

section
/-! PROOFS. The statement about a whole scan pass (R131 to R141): the parts in their order, and each key by its reading. -/

namespace Sys2Proof.Machine

/-! ## The repeat (R133, step 4, R141) -/

section
variable {before after : State} {k : Fin 64} {timer : Nat}

theorem repeatServed_eq_some : repeatServed before after = some (k, timer) ↔
    after.scanner.owner = some k ∧ after.scanner.repeatTimer = some timer ∧ after.scanner.states[k] = .down ∧
      before.scanner.states[k].reported = true := by
  unfold repeatServed
  split
  next j t ho ht =>
    rw [ho, ht]
    split
    next h =>
      constructor
      · rintro ⟨⟩
        exact ⟨rfl, rfl, h⟩
      · rintro ⟨⟨⟩, ⟨⟩, -⟩
        rfl
    next h =>
      refine iff_of_false nofun ?_
      rintro ⟨⟨⟩, -, served⟩
      exact h served
  next h => exact iff_of_false (nofun) fun ⟨ho, ht, _⟩ => h k timer ho ht

theorem repeatServed_eq_none
    (h : ∀ k timer, after.scanner.owner = some k → after.scanner.repeatTimer = some timer →
      ¬ (after.scanner.states[k] = .down ∧ before.scanner.states[k].reported = true)) : repeatServed before after = none := by
  refine Option.eq_none_iff_forall_ne_some.2 fun (k, timer) hserved => ?_
  obtain ⟨owner, runs, served⟩ := repeatServed_eq_some.1 hserved
  exact h k timer owner runs served

theorem serveRepeat_of_unserved (h : repeatServed before after = none) : serveRepeat before after = after := by
  rw [serveRepeat, h]

theorem serveRepeat_of_served (h : repeatServed before after = some (k, timer)) :
    serveRepeat before after =
      if timer ≤ after.scanner.config.period then
        setRepeatTimer (after.scanner.config.repeatInterval * 10) (offer .repeated (keyByte k) after.time.ticks after)
      else setRepeatTimer (timer - after.scanner.config.period) after := by
  rw [serveRepeat, h]

theorem setRepeatTimer_quiet (t : Nat) (s : State) : PassMoves [] s (setRepeatTimer t s) := .of_quiet rfl rfl rfl

/-- R141: the repeat moves no key. -/
theorem serveRepeat_moves (before after : State) :
    ∃ new, PassMoves new after (serveRepeat before after) ∧
      (serveRepeat before after).scanner.states = after.scanner.states := by
  cases h : repeatServed before after with
  | none =>
    rw [serveRepeat_of_unserved h]
    exact ⟨[], .of_quiet rfl rfl rfl, rfl⟩
  | some served =>
    rw [serveRepeat_of_served (k := served.1) (timer := served.2) h]
    split
    · obtain ⟨new, moves, -⟩ := offer_moves .repeated (keyByte served.1) after
      refine ⟨new ++ [], moves.trans (setRepeatTimer_quiet ..), ?_⟩
      rw [setRepeatTimer, offer_scanner]
    · exact ⟨[], setRepeatTimer_quiet .., rfl⟩

end

/-! ## The whole pass (R131, R133) -/

section
variable {longGhosts closed : KeySet} {s : State} {ghost : Bool}

theorem passDue_iff : passDue s = true ↔ passOwed s := by
  simp [passDue, passOwed]

theorem scanPassStep_of_not_owed (h : ¬ passOwed s) : scanPassStep longGhosts s = s := if_neg (mt passDue_iff.1 h)

theorem releasedPart_states (closed : KeySet) (ghost : Bool) (s : State) (k : Fin 64) :
    (releasedPart closed ghost s).scanner.states[k] =
      if readsOpen closed s k then openedState s.scanner.config.settle s.scanner.states[k] else s.scanner.states[k] := by
  rw [← releasedOver_finRange]
  exact (openedStates_getElem k).trans (if_congr (and_iff_right (List.mem_finRange k)) rfl rfl)

theorem releasedPart_ready (closed : KeySet) (ghost : Bool) (s : State) :
    PressReady closed s (List.finRange 64) (releasedPart closed ghost s) where
  ticks := by simp only [releasedPart]
  table := by simp only [releasedPart]
  config := by simp only [releasedPart]
  raw := rfl
  states k _ hr := by
    rw [releasedPart_states]
    exact if_neg fun opened => opened.2 hr

theorem pressSide_releasedPart (closed : KeySet) (ghost : Bool) (s : State) :
    pressSide (releasedPart closed ghost s) = pressedPart closed ghost s := by
  rw [pressSide_eq, pressedPart_eq]
  exact foldl_pressStep (List.nodup_finRange 64) (releasedPart_ready closed ghost s)

/-- R133: the parts of a pass that is owed. -/
theorem scanPassStep_of_owed (h : passOwed s) :
    scanPassStep longGhosts s =
      serveRepeat (releasedPart (linesShow longGhosts s) (ghostLeft (linesShow longGhosts s) s) s)
        (pressedPart (linesShow longGhosts s) (ghostLeft (linesShow longGhosts s) s) s) := by
  rw [scanPassStep, if_pos (passDue_iff.2 h), runPass, passToRelease_takePass, pressSide_releasedPart]

/-- R133, step 3: what the press side does behind the release side. -/
theorem pressedPart_moves (closed : KeySet) (ghost : Bool) (s : State) :
    ∃ new, PassMoves new (releasedPart closed ghost s) (pressedPart closed ghost s) ∧
      ∀ k, PressMoves closed s new k (releasedPart closed ghost s).scanner.states[k] (pressedPart closed ghost s).scanner.states[k] := by
  obtain ⟨new, moves, -, each⟩ :=
    foldl_pressKey_moves (closed := closed) (s := s) (List.nodup_finRange 64) (releasedPart_ready closed ghost s).ticks
  exact ⟨new, moves, fun k => each k (List.mem_finRange k)⟩

/-! ## Reported keys (R134, R135) -/

/-- R135: a reported key that is read closed stays reported and makes no press-side transition. -/
theorem closedState_of_reported {d : Nat} {st : KeyState} (h : st.reported = true) :
    settlesDown d st = false ∧ (closedState st).reported = true := by
  cases st with
  | down | settlingUp _ => exact ⟨rfl, rfl⟩
  | idle | settlingDown _ | suppressed _ => cases h

/-- R135: a closed reading reports a key by its press-side transition alone. -/
theorem closedState_of_unreported {st : KeyState} (h : st.reported = false) : (closedState st).reported = false := by
  cases st with
  | idle | settlingDown _ | suppressed _ => rfl
  | down | settlingUp _ => cases h

/-! ## One key through the whole pass -/

/-- R134: the keys that a pass lets go. -/
abbrev releasedKeys (closed : KeySet) (s : State) : List (Fin 64) := lettingGo closed s (List.finRange 64)

/-- R134: the records of their releases. -/
def releaseRecords (closed : KeySet) (s : State) : List KeyEvent :=
  (releasedKeys closed s).map fun k => { kind := .release, key := keyByte k, time := s.time.ticks }

theorem releasedPart_events (closed : KeySet) (ghost : Bool) (s : State) :
    (releasedPart closed ghost s).keys.events = s.keys.events ++ releaseRecords closed s := by
  rw [← releasedOver_finRange]
  rfl

theorem mem_releaseRecords {k : Fin 64} (hk : readsOpen closed s k)
    (gone : letsGo s.scanner.config.settle s.scanner.states[k] = true) :
    { kind := .release, key := keyByte k, time := s.time.ticks } ∈ releaseRecords closed s :=
  List.mem_map_of_mem (mem_lettingGo.2 ⟨List.mem_finRange k, hk, gone⟩)

section
variable {k : Fin 64} {new : List KeyEvent} {after : KeyState}
  (h : PressMoves closed s new k (releasedPart closed ghost s).scanner.states[k] after)

include h

theorem PressMoves.of_disabled (he : s.scanner.table[k].enabled = false) : after = s.scanner.states[k] := by
  have disabled : ¬ s.scanner.table[k].enabled = true := Bool.eq_false_iff.1 he
  rw [h.other fun hk => disabled hk.1, releasedPart_states]
  exact if_neg fun hk => disabled hk.1

theorem PressMoves.of_open (hk : readsOpen closed s k) :
    after = openedState s.scanner.config.settle s.scanner.states[k] := by
  rw [h.other fun hr => hk.2 hr.2, releasedPart_states]
  exact if_pos hk

/-- R134: a key that is reported no more was read open and let go. -/
theorem PressMoves.released (was : s.scanner.states[k].reported = true) (gone : after.reported = false) :
    { kind := .release, key := keyByte k, time := s.time.ticks } ∈ releaseRecords closed s := by
  cases he : s.scanner.table[k].enabled with
  | false =>
    rw [h.of_disabled he, was] at gone
    cases gone
  | true =>
    by_cases hr : readsClosed s.scanner.config closed k
    · obtain ⟨unsettled, reported⟩ := closedState_of_reported (d := s.scanner.config.settle) was
      rw [h.kept he hr unsettled, reported] at gone
      cases gone
    · rw [h.of_open ⟨he, hr⟩] at gone
      refine mem_releaseRecords ⟨he, hr⟩ ?_
      rw [letsGo, was, gone]
      rfl

/-- R135, R139: a key that has become reported made its press-side transition, and its PRESS was admitted. -/
theorem PressMoves.pressed (was : s.scanner.states[k].reported = false) (now : after.reported = true) :
    { kind := .press, key := keyByte k, time := s.time.ticks } ∈ new := by
  cases he : s.scanner.table[k].enabled with
  | false =>
    rw [h.of_disabled he, was] at now
    cases now
  | true =>
    by_cases hr : readsClosed s.scanner.config closed k
    · cases hs : settlesDown s.scanner.config.settle s.scanner.states[k] with
      | false =>
        rw [h.kept he hr hs, closedState_of_unreported was] at now
        cases now
      | true =>
        rcases h.settled he hr hs with ⟨-, press⟩ | suppressed
        · exact press
        · rw [suppressed] at now
          cases now
    · rw [h.of_open ⟨he, hr⟩] at now
      rw [reported_of_opened _ _ now] at was
      cases was

end

/-- What the parts behind the release side leave, field by field. -/
theorem PassMoves.eq {new : List KeyEvent} {t : State} (h : PassMoves new s t) :
    t = { s with
      scanner := { s.scanner with
        states := t.scanner.states, owner := t.scanner.owner, repeatTimer := t.scanner.repeatTimer, ghost := t.scanner.ghost
        rollover := t.scanner.rollover }
      keys := t.keys
      notices := { s.notices with sticky := t.notices.sticky }
      counters := { s.counters with lostKey := t.counters.lostKey } } :=
  congrArg (fun u : State => { u with
    scanner := { u.scanner with
      states := t.scanner.states, owner := t.scanner.owner, repeatTimer := t.scanner.repeatTimer, ghost := t.scanner.ghost
      rollover := t.scanner.rollover }
    keys := t.keys
    notices := { u.notices with sticky := t.notices.sticky }
    counters := { u.counters with lostKey := t.counters.lostKey } }) h.frame

/-- R133: what a pass that is owed does behind its release side. -/
theorem scanPassStep_moves (h : passOwed s) (longGhosts : KeySet) :
    ∃ new, PassMoves new (releasedPart (linesShow longGhosts s) (ghostLeft (linesShow longGhosts s) s) s) (scanPassStep longGhosts s) ∧
      ∀ k, PressMoves (linesShow longGhosts s) s new k
        (releasedPart (linesShow longGhosts s) (ghostLeft (linesShow longGhosts s) s) s).scanner.states[k]
        (scanPassStep longGhosts s).scanner.states[k] := by
  rw [scanPassStep_of_owed h]
  obtain ⟨new, moves, each⟩ := pressedPart_moves (linesShow longGhosts s) (ghostLeft (linesShow longGhosts s) s) s
  obtain ⟨more, moves', states⟩ := serveRepeat_moves
    (releasedPart (linesShow longGhosts s) (ghostLeft (linesShow longGhosts s) s) s)
    (pressedPart (linesShow longGhosts s) (ghostLeft (linesShow longGhosts s) s) s)
  refine ⟨new ++ more, moves.trans moves', fun k => ?_⟩
  rw [states]
  exact (each k).mono fun e => List.mem_append_left _

theorem exec_scanPass (longGhosts : KeySet) (s : State) : exec (.scanPass longGhosts) s = .next (scanPassStep longGhosts s) := rfl

end

end Sys2Proof.Machine

namespace Sys2Proof.Proofs

open Sys2Proof.Machine

/-- Settles O45: the pass part by part; then each key by its reading, and the events in the order of the parts. -/
theorem scanPassMovesEveryKey : Obligations.ScanPassMovesEveryKey := by
  intro longGhosts s closed d
  refine ⟨fun k => linesShow_getLsbD longGhosts s k.val, fun h => ?_, fun h => ?_, fun h => ?_⟩
  · rw [exec_scanPass, scanPassStep_of_not_owed h]
  · obtain ⟨new, moves, each⟩ := scanPassStep_moves h longGhosts
    have ready := releasedPart_ready closed (ghostLeft closed s) s
    have raw := moves.raw.trans ready.raw
    refine ⟨scanPassStep longGhosts s, releaseRecords closed s ++ new, rfl, ?_, ?_, fun e he => ?_, moves.sticky, fun k => ?_⟩
    · refine moves.eq.trans ?_
      rw [raw]
      simp only [releasedPart, closed]
    · rw [moves.events, releasedPart_events, List.append_assoc]
    · rcases List.mem_append.1 he with he | he
      · obtain ⟨k, -, rfl⟩ := List.mem_map.1 he
        rfl
      · exact (moves.times e he).trans ready.ticks
    · intro before after
      refine ⟨?_, (each k).of_disabled, fun he hr => (each k).of_open ⟨he, hr⟩, fun he hr => ?_,
        fun was gone => List.mem_append_left _ ((each k).released was gone),
        fun was now => List.mem_append_right _ ((each k).pressed was now)⟩
      · rw [raw, sampled_getLsbD]
      · split
        next hs => exact ((each k).settled he hr hs).imp_left And.left
        next hs => exact (each k).kept he hr (Bool.eq_false_of_not_eq_true hs)
  · refine ⟨ghostLeft closed s, ghostLeft_iff closed s, ?_⟩
    intro before after
    rw [exec_scanPass, scanPassStep_of_owed h]
    obtain ⟨new, moves, -⟩ := pressedPart_moves closed (ghostLeft closed s) s
    have config : after.scanner.config = s.scanner.config := moves.config.trans (releasedPart_ready closed _ s).config
    have ticks : after.time.ticks = s.time.ticks := moves.ticks.trans (releasedPart_ready closed _ s).ticks
    refine congrArg Host.Outcome.next ?_
    split
    next k timer ho ht =>
      split
      next served =>
        rw [serveRepeat_of_served (repeatServed_eq_some.2 ⟨ho, ht, served⟩), config, ticks]
        simp only [setRepeatTimer, keyByte]
      next unserved =>
        refine serveRepeat_of_unserved (repeatServed_eq_none fun j timer' hj _ => ?_)
        obtain rfl : k = j := Option.some.inj (ho.symm.trans hj)
        exact unserved
    next stopped => exact serveRepeat_of_unserved (repeatServed_eq_none fun j timer hj ht _ => stopped j timer hj ht)

end Sys2Proof.Proofs
end

section
/-! PROOFS. The statements about a pass over steady keys (R133 to R135, R139 to R141): nothing is let go, no key moves but the one that settles, and
the repeat is served. -/

namespace Sys2Proof.Machine

section
variable {longGhosts closed : KeySet} {s u : State} {l : List (Fin 64)} {j k : Fin 64}

/-! ## Steady keys (R134, R135) -/

theorem idle_of_steadyKey (h : steadyKey s closed j) (hj : readsOpen closed s j) : s.scanner.states[j] = .idle := by
  obtain ⟨enabled, opened⟩ := hj
  rcases h with disabled | ⟨-, idle⟩ | ⟨reads, -⟩
  · rw [disabled] at enabled
    cases enabled
  · exact idle
  · exact absurd reads opened

/-- R134: where every key read open is Idle, the release side only samples the lines. -/
theorem releasedPart_of_idle (h : ∀ j, readsOpen closed s j → s.scanner.states[j] = .idle) :
    releasedPart closed false s = passed closed s := by
  have released : releasedKeys closed s = [] := List.eq_nil_iff_forall_not_mem.2 fun j hj => by
    obtain ⟨-, opened, gone⟩ := mem_lettingGo.1 hj
    rw [h j opened] at gone
    cases gone
  have states : openedStates closed s (List.finRange 64) = s.scanner.states := by
    refine Vector.ext fun i hi => (openedStates_getElem ⟨i, hi⟩).trans ?_
    split
    next opened => 
      have idle := h ⟨i, hi⟩ opened.2
      rw [idle]
      exact idle.symm
    next => rfl
  rw [← releasedOver_finRange, releasedOver_of_none released states, passed]

theorem setKeyState_self {st : KeyState} (h : u.scanner.states[j] = st) : setKeyState j st u = u := by
  subst h
  rw [setKeyState]
  have same : u.scanner.states.set j u.scanner.states[j] = u.scanner.states := Vector.set_getElem_self _
  rw [same]

/-- R135: a steady key passes its turn on the press side. -/
theorem pressKey_of_steady (h : steadyKey s closed j) (hu : u.scanner.states[j] = s.scanner.states[j]) : pressKey closed s u j = u := by
  unfold pressKey
  split
  next reads =>
    obtain ⟨enabled, reads⟩ := reads
    have stays {st : KeyState} (before : s.scanner.states[j] = st) (unsettled : settlesDown s.scanner.config.settle st = false)
        (kept : closedState st = st) :
        (if settlesDown s.scanner.config.settle s.scanner.states[j] then pressTransition j u
          else setKeyState j (closedState s.scanner.states[j]) u) = u := by
      rw [before, unsettled, kept]
      exact setKeyState_self (hu.trans before)
    rcases h with disabled | ⟨opened, -⟩ | ⟨-, down | suppressed⟩
    · rw [disabled] at enabled
      cases enabled
    · exact absurd reads opened
    · exact stays down rfl rfl
    · exact stays suppressed rfl rfl
  next => rfl

theorem foldl_pressKey_of_steady (h : ∀ j ∈ l, steadyKey s closed j) (hu : ∀ j ∈ l, u.scanner.states[j] = s.scanner.states[j]) :
    l.foldl (pressKey closed s) u = u := by
  induction l with
  | nil => rfl
  | cons k l ih =>
    rw [List.foldl_cons, pressKey_of_steady (h k (List.mem_cons_self ..)) (hu k (List.mem_cons_self ..))]
    exact ih (fun j hj => h j (List.mem_cons_of_mem _ hj)) fun j hj => hu j (List.mem_cons_of_mem _ hj)

/-- R135: where all other keys are steady, the press side is the press-side transition of the key that settles. -/
theorem foldl_pressKey_of_settling (hl : l.Nodup) (hk : k ∈ l) (steady : ∀ j, j ≠ k → steadyKey s closed j)
    (enabled : s.scanner.table[k].enabled = true) (reads : readsClosed s.scanner.config closed k)
    (settles : settlesDown s.scanner.config.settle s.scanner.states[k] = true)
    (hu : u.scanner.states = s.scanner.states) : l.foldl (pressKey closed s) u = pressTransition k u := by
  obtain ⟨front, back, rfl⟩ := List.append_of_mem hk
  obtain ⟨-, hback, apart⟩ := List.nodup_append.1 hl
  have notFront : ∀ j ∈ front, j ≠ k := fun j hj => apart j hj k (List.mem_cons_self ..)
  have notBack : ∀ j ∈ back, j ≠ k := fun j hj e => (List.nodup_cons.1 hback).1 (e ▸ hj)
  have pressed : pressKey closed s u k = pressTransition k u := by
    rw [pressKey, if_pos ⟨enabled, reads⟩, if_pos settles]
  obtain ⟨-, st, -, states, -⟩ := pressTransition_moves k u
  rw [List.foldl_append, foldl_pressKey_of_steady (fun j hj => steady j (notFront j hj)) fun j _ => by rw [hu], List.foldl_cons, pressed]
  refine foldl_pressKey_of_steady (fun j hj => steady j (notBack j hj)) fun j hj => ?_
  rw [states, hu]
  exact Vector.getElem_set_ne _ _ fun e => notBack j hj (Fin.ext e.symm)

/-- R133, step 1: with no ambiguous key the ghost episode is over. -/
theorem ghostLeft_of_none_cornered
    (h : ∀ j : Fin 64, readsClosed s.scanner.config closed j → ¬ cornered (sampled s.scanner.config closed) j) :
    ghostLeft closed s = false := by
  refine Bool.eq_false_iff.2 fun left => ?_
  obtain ⟨-, j, reads, corners⟩ := (ghostLeft_iff closed s).1 left
  exact h j reads corners

/-! ## A press with room (R139, R149) -/

theorem queueLost_of_none_dropped (h : s.keys.dropped = 0) (time : Word) : queueLost time s = s := if_neg fun due => due.1 h

theorem pressTransition_of_room (clear : ¬ cornered s.scanner.raw k) (below : downCount s < 8) (dropped : s.keys.dropped = 0)
    (room : downCount s + 2 + s.keys.events.length ≤ 24) :
    pressTransition k s = { s with
      scanner := { s.scanner with
        states := s.scanner.states.set k .down
        owner := some k
        repeatTimer := if s.scanner.table[k].repeats then some (s.scanner.config.repeatDelay * 10) else none }
      keys := { s.keys with
        events := s.keys.events ++ [{ kind := .press, key := BitVec.ofNat 8 k.val, time := s.time.ticks }] } } := by
  have admitted : admits .press s.time.ticks s = true := by
    rw [admits_iff, queueLost_of_none_dropped dropped, freePlaces, Config.eventPlaces, placesNeeded]
    omega
  rw [pressTransition_of_offered clear below, offerPress, if_pos admitted, offer_of_admitted admitted, queueLost_of_none_dropped dropped]
  rfl

end

end Sys2Proof.Machine

namespace Sys2Proof.Proofs

open Sys2Proof.Machine

/-- Settles O46: the pass is the press-side transition of the key that settles, and its repeat is not served yet. -/
theorem scanPassReportsAPress : Obligations.ScanPassReportsAPress := by
  intro longGhosts k s owed _ _ closed clear steady enabled reads settling below dropped room t
  have settles : settlesDown s.scanner.config.settle s.scanner.states[k] = true ∧ s.scanner.states[k].reported = false := by
    rcases settling with ⟨idle, short⟩ | ⟨n, settling, short⟩
    · rw [idle]
      exact ⟨decide_eq_true short, rfl⟩
    · rw [settling]
      exact ⟨decide_eq_true short, rfl⟩
  have idle (j : Fin 64) (hj : readsOpen closed s j) : s.scanner.states[j] = .idle := by
    have other : j ≠ k := fun e => hj.2 (e ▸ reads)
    exact idle_of_steadyKey (steady j other) hj
  have released : releasedPart closed false s = t := releasedPart_of_idle idle
  have pressed : pressedPart closed false s = pressTransition k t := by
    rw [pressedPart_eq, released]
    exact foldl_pressKey_of_settling (List.nodup_finRange 64) (List.mem_finRange k) steady enabled reads settles.1 rfl
  have pressing : pressTransition k t = _ := pressTransition_of_room (s := t) (clear k reads) below dropped room
  rw [exec_scanPass, scanPassStep_of_owed owed, ghostLeft_of_none_cornered clear, released, pressed, pressing]
  refine congrArg Host.Outcome.next (serveRepeat_of_unserved (repeatServed_eq_none fun j timer hj _ served => ?_))
  obtain rfl : k = j := Option.some.inj hj
  exact absurd served.2 (Bool.eq_false_iff.1 settles.2)

end Sys2Proof.Proofs
end

section
/-! PROOFS. The statement about the repeat (R133, R141): REPEAT asks what the pass would do before the pass is counted as taken, and no part of a pass
reads how many passes are due. -/

namespace Sys2Proof.Machine

/-- The part with another number of passes that have fallen due (R131). -/
def withPasses (n : Nat) (s : State) : State := { s with scanner := { s.scanner with passesDue := n } }

section
variable (n : Nat) {s : State}

/-! ## No part of a pass reads the number of passes due -/

theorem queueLost_withPasses (time : Word) (s : State) : queueLost time (withPasses n s) = withPasses n (queueLost time s) := by
  rw [queueLost_eq, queueLost_eq]
  rfl

theorem admits_withPasses (kind : EventKind) (time : Word) (s : State) : admits kind time (withPasses n s) = admits kind time s := by
  rw [admits, queueLost_withPasses]
  rfl

theorem offer_withPasses (kind : EventKind) (key : Byte) (time : Word) (s : State) :
    offer kind key time (withPasses n s) = withPasses n (offer kind key time s) := by
  cases h : admits kind time s with
  | true => rw [offer_of_admitted h, offer_of_admitted ((admits_withPasses n kind time s).trans h), queueLost_withPasses]; rfl
  | false => rw [offer_of_refused h, offer_of_refused ((admits_withPasses n kind time s).trans h), queueLost_withPasses]; rfl

theorem heldKey_withPasses (k : Fin 64) (ghost rollover : Bool) (s : State) :
    heldKey k ghost rollover (withPasses n s) = withPasses n (heldKey k ghost rollover s) := rfl

theorem offerPress_withPasses (k : Fin 64) (s : State) : offerPress k (withPasses n s) = withPasses n (offerPress k s) := by
  have offered : offer .press (keyByte k) (withPasses n s).time.ticks (withPasses n s) =
      withPasses n (offer .press (keyByte k) s.time.ticks s) := offer_withPasses n .press (keyByte k) s.time.ticks s
  have admitted : admits .press (withPasses n s).time.ticks (withPasses n s) = admits .press s.time.ticks s :=
    admits_withPasses n .press s.time.ticks s
  rw [offerPress, offerPress, offered, admitted]
  split <;> rfl

theorem pressTransition_withPasses (k : Fin 64) (s : State) :
    pressTransition k (withPasses n s) = withPasses n (pressTransition k s) := by
  by_cases ambiguous : cornered s.scanner.raw k
  · rw [pressTransition_of_ambiguous ambiguous, pressTransition_of_ambiguous (s := withPasses n s) ambiguous, suppressGhost_eq,
      suppressGhost_eq, heldKey_withPasses, heldKey_withPasses]
    exact (if_congr Iff.rfl rfl (offer_withPasses ..)).trans (apply_ite (withPasses n) ..).symm
  by_cases below : downCount s < 8
  · rw [pressTransition_of_offered ambiguous below, pressTransition_of_offered (s := withPasses n s) ambiguous below,
      offerPress_withPasses]
  · have rollover := Nat.not_lt.1 below
    rw [pressTransition_of_rollover ambiguous rollover, pressTransition_of_rollover (s := withPasses n s) ambiguous rollover,
      suppressRollover_eq, suppressRollover_eq, heldKey_withPasses, heldKey_withPasses]
    exact (if_congr Iff.rfl rfl (offer_withPasses ..)).trans (apply_ite (withPasses n) ..).symm

theorem pressKey_withPasses (closed : KeySet) (s u : State) (k : Fin 64) :
    pressKey closed s (withPasses n u) k = withPasses n (pressKey closed s u k) := by
  unfold pressKey
  split
  · split
    · exact pressTransition_withPasses n k u
    · rfl
  · rfl

theorem foldl_pressKey_withPasses (closed : KeySet) (s u : State) (l : List (Fin 64)) :
    l.foldl (pressKey closed s) (withPasses n u) = withPasses n (l.foldl (pressKey closed s) u) := by
  induction l generalizing u with
  | nil => rfl
  | cons k l ih => rw [List.foldl_cons, pressKey_withPasses, ih, List.foldl_cons]

theorem repeatServed_withPasses (before after : State) :
    repeatServed (withPasses n before) (withPasses n after) = repeatServed before after := rfl

end

/-! ## Where the repeat timer runs out (R141) -/

theorem lettingGo_withPasses (n : Nat) (closed : KeySet) (s : State) (l : List (Fin 64)) :
    lettingGo closed (withPasses n s) l = lettingGo closed s l := rfl

theorem openedStates_withPasses (n : Nat) (closed : KeySet) (s : State) (l : List (Fin 64)) :
    openedStates closed (withPasses n s) l = openedStates closed s l := rfl

/-- R131, R133: a pass that is taken leaves one pass fewer due, and reads that number nowhere else. -/
theorem releasedPart_withPasses (n : Nat) (closed : KeySet) (ghost : Bool) (s : State) :
    releasedPart closed ghost (withPasses (n + 1) s) = withPasses n (releasedPart closed ghost s) := by
  rw [← releasedOver_finRange, ← releasedOver_finRange]
  unfold releasedOver
  rw [lettingGo_withPasses, openedStates_withPasses]
  unfold withPasses
  simp only [Nat.add_sub_cancel]

theorem pressKey_of_withPasses (n : Nat) (closed : KeySet) (s : State) : pressKey closed (withPasses n s) = pressKey closed s := rfl

section
variable (longGhosts : KeySet) (s : State)

theorem passToRelease_takePass_withPasses (n : Nat) :
    passToRelease longGhosts (takePass (withPasses (n + 1) s)) =
      releasedPart (linesShow longGhosts s) (ghostLeft (linesShow longGhosts s) s) (withPasses (n + 1) s) :=
  passToRelease_takePass longGhosts (withPasses (n + 1) s)

/-- R133, steps 1 and 2: the release side as REPEAT looks ahead at it, with no pass taken. -/
theorem passToRelease_eq :
    passToRelease longGhosts s =
      withPasses s.scanner.passesDue (releasedPart (linesShow longGhosts s) (ghostLeft (linesShow longGhosts s) s) s) := by
  rw [← releasedPart_withPasses, ← passToRelease_takePass_withPasses]
  rfl

/-- R133, step 3: the press side likewise. -/
theorem pressSide_passToRelease :
    pressSide (passToRelease longGhosts s) =
      withPasses s.scanner.passesDue (pressedPart (linesShow longGhosts s) (ghostLeft (linesShow longGhosts s) s) s) := by
  rw [passToRelease_eq, ← releasedPart_withPasses, pressSide_releasedPart, pressedPart_eq, pressKey_of_withPasses,
    releasedPart_withPasses, foldl_pressKey_withPasses, pressedPart_eq]

theorem repeatRunsOut_iff :
    repeatRunsOut longGhosts s = true ↔ repeatDue (linesShow longGhosts s) (ghostLeft (linesShow longGhosts s) s) s := by
  unfold repeatRunsOut repeatDue
  rw [pressSide_passToRelease, passToRelease_eq, repeatServed_withPasses]
  split
  next k timer served =>
    obtain ⟨owner, runs, down, reported⟩ := repeatServed_eq_some.1 served
    rw [decide_eq_true_iff]
    constructor
    · exact fun out => ⟨k, timer, owner, runs, down, reported, out⟩
    · rintro ⟨j, timer', -, runs', -, -, out⟩
      rwa [Option.some.inj (runs.symm.trans runs')]
  next unserved =>
    refine iff_of_false Bool.false_ne_true ?_
    rintro ⟨j, timer, owner, runs, down, reported, -⟩
    rw [repeatServed_eq_some.2 ⟨owner, runs, down, reported⟩] at unserved
    cases unserved

variable {longGhosts s}

theorem exec_repeatEvent (longGhosts : KeySet) (s : State) :
    exec (.repeatEvent longGhosts) s = .next (if repeatRunsOut longGhosts s then scanPassStep longGhosts s else s) := rfl

theorem exec_repeatEvent_of_due (h : repeatDue (linesShow longGhosts s) (ghostLeft (linesShow longGhosts s) s) s) :
    exec (.repeatEvent longGhosts) s = exec (.scanPass longGhosts) s := by
  rw [exec_repeatEvent, if_pos ((repeatRunsOut_iff longGhosts s).2 h), exec_scanPass]

theorem exec_repeatEvent_of_not_due (h : ¬ repeatDue (linesShow longGhosts s) (ghostLeft (linesShow longGhosts s) s) s) :
    exec (.repeatEvent longGhosts) s = .next s := by
  rw [exec_repeatEvent, if_neg (mt (repeatRunsOut_iff longGhosts s).1 h)]

/-- R131: with no pass owed REPEAT changes nothing. -/
theorem exec_repeatEvent_of_not_owed (h : ¬ passOwed s) : exec (.repeatEvent longGhosts) s = .next s := by
  rw [exec_repeatEvent, scanPassStep_of_not_owed h, ite_self]

end

end Sys2Proof.Machine

namespace Sys2Proof.Proofs

open Sys2Proof.Machine

/-- Settles O48: REPEAT by whether the timer would run out; over steady keys the pass is the repeat alone. -/
theorem repeatTimerIsServed : Obligations.RepeatTimerIsServed := by
  refine ⟨fun longGhosts s => ?_, fun longGhosts k timer s owed _ _ => ?_⟩
  · exact ⟨exec_repeatEvent_of_not_owed, fun _ =>
      ⟨ghostLeft _ s, ghostLeft_iff _ s, exec_repeatEvent_of_due, exec_repeatEvent_of_not_due⟩⟩
  · intro closed clear steady owner down runs
    have ghost : ghostLeft closed s = false := ghostLeft_of_none_cornered clear
    have released : releasedPart closed false s = passed closed s := releasedPart_of_idle fun j => idle_of_steadyKey (steady j)
    have pressed : pressedPart closed false s = passed closed s := by
      rw [pressedPart_eq, released]
      exact foldl_pressKey_of_steady (fun j _ => steady j) fun _ _ => rfl
    have reported : s.scanner.states[k].reported = true := by rw [down]; rfl
    have served : repeatServed (passed closed s) (passed closed s) = some (k, timer) :=
      repeatServed_eq_some.2 ⟨owner, runs, down, reported⟩
    have pass : exec (.scanPass longGhosts) s = .next (serveRepeat (passed closed s) (passed closed s)) := by
      rw [exec_scanPass, scanPassStep_of_owed owed, ghost, released, pressed]
    rw [serveRepeat_of_served served] at pass
    have due : repeatDue closed (ghostLeft closed s) s ↔ timer ≤ s.scanner.config.period := by
      rw [ghost, repeatDue, released, pressed]
      constructor
      · rintro ⟨j, timer', -, runs', -, -, out⟩
        rwa [Option.some.inj (runs.symm.trans runs')]
      · exact fun out => ⟨k, timer, owner, runs, down, reported, out⟩
    refine ⟨fun out => ?_, fun short => ?_⟩
    · have served := pass.trans (congrArg Host.Outcome.next (if_pos out))
      exact ⟨(exec_repeatEvent_of_due (due.2 out)).trans served, served⟩
    · have long := Nat.not_le.2 short
      exact ⟨pass.trans (congrArg Host.Outcome.next (if_neg long)), exec_repeatEvent_of_not_due (mt due.1 long)⟩

end Sys2Proof.Proofs
end

section
/-! PROOFS. The statement about the latch and the attention line (R157, R161, R162): addresses 2 to 5 read the latch and the mask bit by bit, and
ATTN and Top Notice both go back to the lowest notice that is set and unmasked. -/

namespace Sys2Proof.Machine

/-! ## The two bytes of a notice word (R3) -/

/-- R3: bits 0 to 7 read at the low address, bits 8 to 10 at the high one. -/
theorem wordBytes_getLsbD (w : BitVec 11) (n : Nat) :
    (if n < 8 then (w.extractLsb' 0 8).getLsbD n else (w.extractLsb' 8 8).getLsbD (n - 8)) = w.getLsbD n := by
  by_cases low : n < 8
  · simp [low]
  · by_cases high : n < 11
    · simp [low, show n - 8 < 8 by omega, show 8 + (n - 8) = n by omega]
    · simp [low, show 11 ≤ n by omega, show 11 ≤ 8 + (n - 8) by omega]

/-! ## The lowest set bit (R162) -/

section
variable {w : BitVec 11}

theorem exists_lowestBit (h : w ≠ 0) : ∃ n, w.getLsbD n = true ∧ ∀ m, m < n → w.getLsbD m = false := by
  have someSet : ∃ n, w.getLsbD n = true := by
    by_contra noneSet
    exact h (BitVec.eq_of_getLsbD_eq fun n _ => by simpa using fun set => noneSet ⟨n, set⟩)
  exact ⟨Nat.find someSet, Nat.find_spec someSet, fun m hm => Bool.eq_false_of_not_eq_true (Nat.find_min someSet hm)⟩

theorem lowestBitPlusOne_of_lowest {n : Nat} (set : w.getLsbD n = true) (clear : ∀ m, m < n → w.getLsbD m = false) :
    lowestBitPlusOne w = n + 1 := by
  have found : (List.range 11).find? (fun i => w.getLsbD i) = some n :=
    List.find?_range_eq_some.2 ⟨set, List.mem_range.2 (BitVec.lt_of_getLsbD set), fun m hm => by rw [clear m hm]; rfl⟩
  rw [lowestBitPlusOne, found]

end

section
variable (s : State)

/-! ## The latch (R156, R157) -/

theorem levelNotices_getLsbD {n : Nat} (h : n < 11) :
    (levelNotices s).getLsbD n = if n = 4 then !s.keys.events.isEmpty else if n = 5 then !s.link.ring.isEmpty else false := by
  unfold levelNotices
  cases s.keys.events.isEmpty <;> cases s.link.ring.isEmpty <;> revert n <;> decide

theorem noticeLatch_getLsbD {n : Nat} (h : n < 11) :
    (noticeLatch s).getLsbD n =
      if n = 4 then !s.keys.events.isEmpty else if n = 5 then !s.link.ring.isEmpty else s.notices.sticky.getLsbD n := by
  rw [noticeLatch, BitVec.getLsbD_or, BitVec.getLsbD_and, stickyBits_getLsbD h, levelNotices_getLsbD s h]
  by_cases h4 : n = 4
  · simp [h4]
  · by_cases h5 : n = 5 <;> simp [h4, h5]

/-! ## ATTN and Top Notice (R161, R162) -/

theorem activeNotices_getLsbD (n : Nat) :
    (activeNotices s).getLsbD n = true ↔ (noticeLatch s).getLsbD n = true ∧ s.notices.mask.getLsbD n = true := by
  rw [activeNotices, BitVec.getLsbD_and, Bool.and_eq_true]

theorem attn_iff : attn s = true ↔ ∃ n, n < 11 ∧ (activeNotices s).getLsbD n = true := by
  rw [attn, bne_iff_ne]
  constructor
  · intro nonzero
    obtain ⟨n, active, -⟩ := exists_lowestBit nonzero
    exact ⟨n, BitVec.lt_of_getLsbD active, active⟩
  · rintro ⟨n, -, active⟩ zero
    simp [zero] at active

variable {s} in
theorem topNotice_of_lowest {n : Nat} (active : (activeNotices s).getLsbD n = true)
    (lower : ∀ m, m < n → (activeNotices s).getLsbD m = false) : (topNotice s).toNat = n + 1 := by
  have bound : n < 11 := BitVec.lt_of_getLsbD active
  rw [topNotice, lowestBitPlusOne_of_lowest active lower, BitVec.toNat_ofNat]
  omega

theorem topNotice_eq_zero_iff : topNotice s = 0 ↔ attn s = false := by
  constructor
  · intro zero
    by_contra asserted
    obtain ⟨n, active, lower⟩ := exists_lowestBit (bne_iff_ne.1 (Bool.eq_true_of_not_eq_false asserted))
    have top := topNotice_of_lowest active lower
    rw [zero] at top
    exact absurd top.symm (Nat.succ_ne_zero n)
  · intro released
    have noneActive : activeNotices s = 0 := by simpa [attn] using released
    rw [topNotice, noneActive]
    decide

end

end Sys2Proof.Machine

namespace Sys2Proof.Proofs

open Sys2Proof.Machine

/-- Settles O26: the port bytes are the latch and the mask bit by bit, and ATTN and Top Notice read the set and unmasked notices. -/
theorem latchAttnAndTopNoticeAgree : Obligations.LatchAttnAndTopNoticeAgree := by
  intro s isSet unmasked
  have latch : ∀ n, isSet n = (noticeLatch s).getLsbD n := wordBytes_getLsbD (noticeLatch s)
  have mask : ∀ n, unmasked n = s.notices.mask.getLsbD n := wordBytes_getLsbD s.notices.mask
  have active (n : Nat) : isSet n = true ∧ unmasked n = true ↔ (activeNotices s).getLsbD n = true := by
    rw [latch, mask, activeNotices_getLsbD]
  refine ⟨rfl, fun n _ => mask n, fun n hn h4 h5 => ?_, ?_, ?_, ?_, topNotice_eq_zero_iff s, fun n _ set shown lower => ?_⟩
  · rw [latch, noticeLatch_getLsbD s hn, if_neg h4, if_neg h5]
  · rw [latch, noticeLatch_getLsbD s (by decide)]
    simp
  · rw [latch, noticeLatch_getLsbD s (by decide)]
    simp
  · simp only [attn_iff, active]
  · exact topNotice_of_lowest ((active n).1 ⟨set, shown⟩) fun m hm =>
      Bool.eq_false_of_not_eq_true (mt (active m).2 (lower m hm))

end Sys2Proof.Proofs
end

section
/-! PROOFS. The statement about the requests of the timebase (R165, R166, R168). -/

namespace Sys2Proof.Machine

section
variable {s : State}

/-! ## READ TIME (R165) -/

/-- R165: the 12 result bytes, one by one. -/
theorem timeBytes_eq (s : State) :
    timeBytes s =
      [BitVec.ofNat 8 (s.time.ticks.toNat % 256), BitVec.ofNat 8 (s.time.ticks.toNat / 256),
       BitVec.ofNat 8 (s.frames.counter.toNat % 256), BitVec.ofNat 8 (s.frames.counter.toNat / 256),
       alarmModeByte s.time.alarmMode,
       BitVec.ofNat 8 (s.time.alarmCount.toNat % 256), BitVec.ofNat 8 (s.time.alarmCount.toNat / 256),
       s.time.watchPeriod, fallbackActionByte s.time.watchAction, linkStateByte s.time.link,
       BitVec.ofNat 8 (s.time.watchCount.toNat % 256), BitVec.ofNat 8 (s.time.watchCount.toNat / 256)] := by
  simp only [timeBytes, wordBytes_eq]
  rfl

/-! ## SET ALARM (R166) -/

/-- R166: the mode and the period that SET ALARM accepts for an alarm that is set. -/
abbrev alarmAccepted (mode : Byte) (period : Word) : Prop := (mode = 1 ∨ mode = 2) ∧ period ≠ 0

/-- R166: a code byte other than those of the three modes is the code of none. -/
theorem alarmModeOf_eq_none {mode : Byte} (set : mode ≠ 0) (known : ¬ (mode = 1 ∨ mode = 2)) : alarmModeOf mode = none := by
  obtain ⟨notOneShot, notPeriodic⟩ := not_or.1 known
  rw [alarmModeOf, if_neg set, if_neg notOneShot, if_neg notPeriodic]

theorem setAlarmBody_of_mode {payload : List Byte} {mode : AlarmMode} (four : payload.length = 4)
    (read : alarmModeOf (byteAt payload 0) = some mode) (s : State) :
    setAlarmBody payload s =
      if mode ≠ .off ∧ wordAt payload 1 = 0 then .fail .outOfRange []
      else doneWith { s with time := withAlarm mode (wordAt payload 1) ((byteAt payload 3).getLsbD 0) s.time } := by
  rw [setAlarmBody, if_neg (not_not.2 four), read]

theorem setAlarmBody_of_no_mode {payload : List Byte} (four : payload.length = 4)
    (read : alarmModeOf (byteAt payload 0) = none) (s : State) : setAlarmBody payload s = .fail .outOfRange [] := by
  rw [setAlarmBody, if_neg (not_not.2 four), read]

theorem setAlarmBody_of_accepted {mode lo hi : Byte} (accepted : alarmAccepted mode (hi ++ lo)) (flags : Byte) (s : State) :
    setAlarmBody [mode, lo, hi, flags] s =
      doneWith { s with time := { s.time with
        alarmMode := if mode = 1 then .oneShot else .periodic
        alarmPeriod := hi ++ lo
        alarmCount := hi ++ lo
        alarmWake := flags.getLsbD 0 } } := by
  obtain ⟨known, period⟩ := accepted
  rcases known with rfl | rfl
  · rw [setAlarmBody_of_mode (mode := .oneShot) rfl rfl]
    exact if_neg fun zero => period zero.2
  · rw [setAlarmBody_of_mode (mode := .periodic) rfl rfl]
    exact if_neg fun zero => period zero.2

theorem setAlarmBody_of_refused {mode lo hi : Byte} (set : mode ≠ 0) (refused : ¬ alarmAccepted mode (hi ++ lo)) (flags : Byte)
    (s : State) : setAlarmBody [mode, lo, hi, flags] s = .fail .outOfRange [] := by
  by_cases known : mode = 1 ∨ mode = 2
  · have zero : (hi ++ lo : Word) = 0 := not_not.1 fun period => refused ⟨known, period⟩
    rcases known with rfl | rfl
    · rw [setAlarmBody_of_mode (mode := .oneShot) rfl rfl]
      exact if_pos ⟨nofun, zero⟩
    · rw [setAlarmBody_of_mode (mode := .periodic) rfl rfl]
      exact if_pos ⟨nofun, zero⟩
  · exact setAlarmBody_of_no_mode (payload := [mode, lo, hi, flags]) rfl (alarmModeOf_eq_none set known) s

/-! ## SET LINK WATCH (R168) -/

/-- R168: the fallback action of a code byte up to 2; a greater byte is the code of none. -/
theorem fallbackActionOf_of_le {b : Byte} (h : b.toNat ≤ 2) :
    fallbackActionOf b = some (if b = 0 then .none else if b = 1 then .fallback else .fallbackAndShow) := by
  have codes : b = 0 ∨ b = 1 ∨ b = 2 := by bv_omega
  rcases codes with rfl | rfl | rfl <;> rfl

theorem fallbackActionOf_of_gt {b : Byte} (h : ¬ b.toNat ≤ 2) : fallbackActionOf b = none := by
  have above (n : Byte) (hn : n.toNat ≤ 2) : b ≠ n := fun e => h (e ▸ hn)
  rw [fallbackActionOf, if_neg (above 0 (by decide)), if_neg (above 1 (by decide)), if_neg (above 2 (by decide))]

/-- R168: SET LINK WATCH sets the period and the action, and restarts the watch where it runs. -/
theorem setWatch_whole (period : Byte) (action : FallbackAction) (s : State) :
    setWatch period action s =
      { s with time := { s.time with
        watchPeriod := period
        watchAction := action
        watchCount := if period ≠ 0 ∧ s.time.link = .live then BitVec.ofNat 16 (period.toNat * 100) else 0 } } := by
  rw [setWatch, loadWatch_eq]
  dsimp only
  split <;> rfl

theorem setLinkWatchBody_of_fields {payload : List Byte} {action : FallbackAction} (two : payload.length = 2)
    (period : inRange 0 64 (byteAt payload 0) = true) (read : fallbackActionOf (byteAt payload 1) = some action) (s : State) :
    setLinkWatchBody payload s = doneWith (setWatch (byteAt payload 0) action s) := by
  rw [setLinkWatchBody, if_neg (not_not.2 two), period, read]

theorem setLinkWatchBody_of_refused {payload : List Byte} (two : payload.length = 2)
    (refused : inRange 0 64 (byteAt payload 0) = false ∨ fallbackActionOf (byteAt payload 1) = none) (s : State) :
    setLinkWatchBody payload s = .fail .outOfRange [] := by
  rw [setLinkWatchBody, if_neg (not_not.2 two)]
  rcases refused with period | action
  · rw [period]
  · rw [action]
    cases inRange 0 64 (byteAt payload 0) <;> rfl

/-- R168: SET LINK WATCH is DONE exactly where the period and the action are in their ranges. -/
theorem setLinkWatchBody_eq (p a : Byte) (s : State) :
    setLinkWatchBody [p, a] s =
      if p.toNat ≤ 64 ∧ a.toNat ≤ 2 then
        doneWith (setWatch p (if a = 0 then .none else if a = 1 then .fallback else .fallbackAndShow) s)
      else .fail .outOfRange [] := by
  have period : inRange 0 64 p = true ↔ p.toNat ≤ 64 := (inRange_iff 0 64 p).trans (and_iff_right (Nat.zero_le _))
  split
  next legal =>
    exact setLinkWatchBody_of_fields (payload := [p, a]) rfl (period.2 legal.1) (fallbackActionOf_of_le legal.2) s
  next illegal =>
    refine setLinkWatchBody_of_refused (payload := [p, a]) rfl ?_ s
    exact (not_and_or.1 illegal).imp (fun outside => Bool.eq_false_of_not_eq_true (mt period.1 outside)) fallbackActionOf_of_gt

end

end Sys2Proof.Machine

namespace Sys2Proof.Proofs

open Sys2Proof.Machine

/-- Settles O18: each request by its size, SET ALARM by its mode and period, SET LINK WATCH by the ranges of its two bytes. -/
theorem timebaseRequestsAnswer : Obligations.TimebaseRequestsAnswer := by
  intro tag payload s
  refine ⟨fun h => ?_, fun h => ?_, fun h => ?_⟩
  · split
    next => exact exec_of_reading rfl h (congrArg (doneReading (beginExecution s)) (timeBytes_eq (beginExecution s)))
    next other => exact exec_of_badSize rfl h (if_pos fun zero => other (List.length_eq_zero_iff.1 zero))
  · split
    next mode lo hi flags =>
      dsimp only
      split
      next off =>
        subst off
        exact exec_of_done rfl h (setAlarmBody_of_mode (mode := .off) rfl rfl _) rfl rfl
      next set =>
        split
        next accepted => exact exec_of_done rfl h (setAlarmBody_of_accepted accepted ..) rfl rfl
        next refused => exact exec_of_outOfRange rfl h (setAlarmBody_of_refused set refused ..)
    next other =>
      refine exec_of_badSize rfl h (if_pos fun four => ?_)
      obtain ⟨mode, lo, hi, flags, rfl⟩ := List.length_eq_four.1 four
      exact other mode lo hi flags rfl
  · split
    next p a =>
      have body := setLinkWatchBody_eq p a (beginExecution s)
      split
      next legal =>
        rw [if_pos legal, setWatch_whole] at body
        exact exec_of_done rfl h body rfl rfl
      next illegal =>
        rw [if_neg illegal] at body
        exact exec_of_outOfRange rfl h body
    next other =>
      refine exec_of_badSize rfl h (if_pos fun two => ?_)
      obtain ⟨p, a, rfl⟩ := List.length_eq_two.1 two
      exact other p a rfl

end Sys2Proof.Proofs
end

section
/-! PROOFS. The statement about the ticks at which the alarm or the link watch expires (R164, R167, R169, R176, R180): from the whole tick, at which
the gap timer goes on and Sleep is not entered. -/

namespace Sys2Proof.Machine

section
variable {s : State}

/-! ## The tick of a gap timer that goes on -/

/-- R177: a tick at which the gap timer goes on brings no entry to Sleep about: the link holds what it held, and an alarm that acts on the
power state leaves the part in Run. -/
theorem sleepReady_served (h : Settled s) : sleepReady (watchServed s (alarmServed s (ticked s))) = false := by
  have code : assemblerCode (gapCounted s.link.assembler) = assemblerCode s.link.assembler := by
    cases s.link.assembler <;> rfl
  have link : (watchServed s (alarmServed s (ticked s))).link = { s.link with assembler := gapCounted s.link.assembler } := by
    obtain ⟨sticky, power, scanner, frames, mode, period, count, alarm⟩ := alarmServed_eq s (ticked s)
    rw [alarm, watchServed]
    split <;> rfl
  rw [sleepReady, watchServed_power, link, code]
  rcases alarmServed_power s (ticked s) with kept | ⟨-, run⟩
  · rw [kept]
    exact h.2
  · rw [run]
    rfl

/-- R164: the whole tick of a gap timer that goes on. -/
theorem tickStep_of_gapRuns (h : Settled s) (hp : s.power.state = .run ∨ s.power.state = .sleepPending ∨ s.power.state = .doze)
    (hruns : gapRuns s.link.assembler) : tickStep s = watchServed s (alarmServed s (ticked s)) := by
  have noEnd (toCome : Nat) (sum : Byte) (damaged : Bool) : s.link.assembler ≠ .collecting toCome sum damaged 1 := by
    intro ends
    rw [ends] at hruns
    exact Nat.lt_irrefl 1 hruns
  rw [tickStep_eq h hp (gapPositive_of_runs hruns) fun _ _ _ ends => absurd ends (noEnd _ _ _), gapServed_of_runs hruns,
    sleptIfQuiet_eq_self _ (sleepReady_served h)]

/-! ## The commands of the two expiries (R167, R169) -/

theorem exec_alarmExpiry : exec .alarmExpiry s = .next (if alarmExpiryDue s then tickStep s else s) := rfl
theorem exec_linkWatchExpiry : exec .linkWatchExpiry s = .next (if watchExpiryDue s then tickStep s else s) := rfl

/-- R167: an alarm expiry falls due where ticks run and the alarm is at its end. -/
theorem alarmExpiryDue_iff : alarmExpiryDue s = true ↔ ticksRun s.power.state = true ∧ alarmAtEnd s := by
  simp [alarmExpiryDue, alarmRunsOut]

/-- R169: an expiry of the watch falls due where ticks run and the watch is at its end. -/
theorem watchExpiryDue_iff : watchExpiryDue s = true ↔ ticksRun s.power.state = true ∧ watchAtEnd s := by
  rw [watchExpiryDue, Bool.and_eq_true, Bool.and_eq_true, watchRuns_iff, beq_iff_eq, and_assoc, and_assoc]

theorem exec_alarmExpiry_of_due (hp : ticksRun s.power.state = true) (h : alarmAtEnd s) : exec .alarmExpiry s = exec .tick s := by
  rw [exec_alarmExpiry, if_pos (alarmExpiryDue_iff.2 ⟨hp, h⟩), exec_tick]

theorem exec_linkWatchExpiry_of_due (hp : ticksRun s.power.state = true) (h : watchAtEnd s) :
    exec .linkWatchExpiry s = exec .tick s := by
  rw [exec_linkWatchExpiry, if_pos (watchExpiryDue_iff.2 ⟨hp, h⟩), exec_tick]

theorem exec_alarmExpiry_of_not_due (h : ¬ alarmAtEnd s) : exec .alarmExpiry s = .next s := by
  rw [exec_alarmExpiry, if_neg fun due => h (alarmExpiryDue_iff.1 due).2]

theorem exec_linkWatchExpiry_of_not_due (h : ¬ watchAtEnd s) : exec .linkWatchExpiry s = .next s := by
  rw [exec_linkWatchExpiry, if_neg fun due => h (watchExpiryDue_iff.1 due).2]

end

end Sys2Proof.Machine

namespace Sys2Proof.Proofs

open Sys2Proof.Machine

/-- Settles O44: either command is the tick where its timer ends, and of the tick's last two parts only that timer's does anything. -/
theorem alarmAndWatchExpire : Obligations.AlarmAndWatchExpire := by
  intro s h hp
  have runs := (ticksRun_iff _).2 hp
  refine ⟨exec_alarmExpiry_of_not_due, exec_linkWatchExpiry_of_not_due, exec_alarmExpiry_of_due runs, exec_linkWatchExpiry_of_due runs,
    fun gap alarm noWatch => ?_, fun gap watch noAlarm => ?_⟩
  · intro rung t
    have tick : exec .tick s = .next t := by
      rw [exec_tick, tickStep_of_gapRuns h hp gap, watchServed, if_neg noWatch, alarmServed, if_pos alarm]
      rfl
    exact ⟨(exec_alarmExpiry_of_due runs alarm).trans tick, tick⟩
  · intro t
    have tick : exec .tick s = .next t := by
      rw [exec_tick, tickStep_of_gapRuns h hp gap, alarmServed, if_neg noAlarm, watchServed, if_pos watch]
      rfl
    exact ⟨(exec_linkWatchExpiry_of_due runs watch).trans tick, tick⟩

end Sys2Proof.Proofs
end

section
/-! PROOFS. The statement about the requests that change the power state (R36, R175 to R177, R180, R182): what the posting will do is held with the
REPLY, and WAKE in Doze makes the return to Run. -/

namespace Sys2Proof.Machine

section
variable {c : Instr} {kind tag : Byte} {payload result : List Byte} {s : State}

/-- R33, R37: a request that leaves its effect to the posting of its REPLY changes nothing else in its execution step. -/
theorem exec_of_posting (effect : PostEffect) (hc : requestCode c = some kind) (h : RequestDue kind tag payload s)
    (hv : requestBody c payload (beginExecution s) = .done (beginExecution s) result effect) :
    exec c s = .next { s with requests := replyHeld kind tag 0 result effect s.requests } := by
  rw [exec_of_due hc h, hv, answeredBy, replyHeld_beginExecution]
  rfl

/-! ## The bodies at an empty payload -/

variable (s)

theorem enterDozeBody_eq :
    enterDozeBody [] s =
      if s.power.state = .doze then doneWith s
      else if s.chains.queue = [] then .done s [] .enterDoze else .fail .busy [] := by
  simp only [enterDozeBody, List.length_nil, ne_eq, not_true_eq_false, if_false, ite_not, List.length_eq_zero_iff]

theorem enterSleepBody_eq :
    enterSleepBody [] s =
      if s.power.state = .doze then .fail .wrongState []
      else if s.chains.queue = [] then .done s [] .enterSleep else .fail .busy [] := by
  simp only [enterSleepBody, List.length_nil, ne_eq, not_true_eq_false, if_false, ite_not, List.length_eq_zero_iff]

/-- R180: the return from Doze gives WAKE and leaves the timebase. -/
theorem returnToRun_of_doze (h : s.power.state = .doze) :
    returnToRun s = { resumed s with notices := { s.notices with sticky := s.notices.sticky ||| BitVec.twoPow 11 3 } } := by
  rw [returnToRun_eq, h, if_neg fun asleep => nomatch asleep.1]
  rfl

end

end Sys2Proof.Machine

namespace Sys2Proof.Proofs

open Sys2Proof.Machine

/-- Settles O2: each request by its size, then by the power state and the chains that are pending. -/
theorem powerRequestsAnswer : Obligations.PowerRequestsAnswer := by
  refine fun tag payload s => ⟨fun h => ?_, fun h => ?_, fun h => ?_, fun h => ?_⟩
  · cases payload with
    | nil => exact exec_of_posting .warmReset rfl h rfl
    | cons b rest => exact exec_of_badSize rfl h rfl
  · cases payload with
    | nil =>
      have hbody := enterDozeBody_eq (beginExecution s)
      dsimp only
      split
      next doze => exact exec_of_reading rfl h (hbody.trans (if_pos doze))
      next awake =>
        have hbody := hbody.trans (if_neg awake)
        split
        next free => exact exec_of_posting .enterDoze rfl h (hbody.trans (if_pos free))
        next busy => exact exec_of_fail .busy rfl h (hbody.trans (if_neg busy))
    | cons b rest => exact exec_of_badSize rfl h rfl
  · cases payload with
    | nil =>
      have hbody := enterSleepBody_eq (beginExecution s)
      dsimp only
      split
      next doze => exact exec_of_fail .wrongState rfl h (hbody.trans (if_pos doze))
      next awake =>
        have hbody := hbody.trans (if_neg awake)
        split
        next free => exact exec_of_posting .enterSleep rfl h (hbody.trans (if_pos free))
        next busy => exact exec_of_fail .busy rfl h (hbody.trans (if_neg busy))
    | cons b rest => exact exec_of_badSize rfl h rfl
  · cases payload with
    | nil =>
      dsimp only
      split
      next doze =>
        have woken := returnToRun_of_doze (beginExecution s) doze
        refine exec_of_done (t := returnToRun (beginExecution s)) rfl h (if_pos doze) ?_ ?_ <;> rw [woken] <;> rfl
      next awake => exact exec_of_reading rfl h (if_neg awake)
    | cons b rest => exact exec_of_badSize rfl h rfl

end Sys2Proof.Proofs
end

section
/-! PROOFS. The statement about the power state (R172 to R179): each command leaves it or makes one of the transitions of the table, and beside the
resets it is changed in four places only: the return to Run, a Length byte that abandons a pending sleep, the posting that leaves Run, and the end of a
step that enters Sleep. -/

namespace Sys2Proof.Machine

/-- R172: the command leaves the power state, or changes it by a transition of the table that is made in its step. -/
def PowerMoves (c : Instr) (s t : State) : Prop :=
  t.power.state = s.power.state ∨ powerChange c s.power.state t.power.state = true

section
variable {c : Instr} {s t : State}

/-- A command that acts in some states only. -/
theorem PowerMoves.ite {p : Prop} [Decidable p] (h : p → PowerMoves c s t) : PowerMoves c s (if p then t else s) := by
  split
  · exact h ‹_›
  · exact .inl rfl

/-- R172, R173: from every power state a reset makes Starting. -/
theorem PowerMoves.of_reset (hc : resetCommand c = true) (ht : t.power.state = .starting) : PowerMoves c s t := by
  have made : powerChange c s.power.state .starting = resetCommand c := by cases s.power.state <;> rfl
  exact .inr (by rw [ht, made, hc])

/-! ## The end of a step and the return to Run -/

/-- R177: the end of a step leaves the power state or enters Sleep from Sleep-Pending. -/
theorem closeStep_power (s : State) : (closeStep s).power.state = s.power.state ∨
    (s.power.state = .sleepPending ∧ (closeStep s).power.state = .sleep) := by
  have rejected : (withReject s).power = s.power := by rw [withReject_requests]
  rw [closeStep_eq, ← rejected]
  unfold sleptIfQuiet
  split
  next quiet => exact .inr ⟨quiet.1, rfl⟩
  next => exact .inl rfl

theorem closeStep_power_of_awake (h : s.power.state ≠ .sleepPending) : (closeStep s).power.state = s.power.state :=
  (closeStep_power s).resolve_right fun slept => h slept.1

theorem returnToRun_power (s : State) : (returnToRun s).power.state = .run := by
  rw [returnToRun_eq]
  rfl

/-- R177: a step in which Sleep can be entered, where it has left the power state or made Run of it before its end. -/
theorem powerMoves_closeStep (hc : powerChange c .sleepPending .sleep = true)
    (ht : t.power.state = s.power.state ∨ (t.power.state = .run ∧ powerChange c s.power.state .run = true)) :
    PowerMoves c s (closeStep t) := by
  rcases ht with kept | ⟨run, made⟩
  · rcases closeStep_power t with e | ⟨pending, slept⟩
    · exact .inl (e.trans kept)
    · exact .inr (by rw [slept, ← kept, pending, hc])
  · have e := (closeStep_power_of_awake (s := t) (by simp [run])).trans run
    exact .inr (by rw [e, made])

/-! ## The port (R3 to R9, R23 to R25) -/

theorem writeLinkData_power (value : Byte) (s : State) : (writeLinkData value s).power.state = s.power.state := by
  unfold writeLinkData holdByte
  split
  · rfl
  · split
    · dsimp only
      split <;> rfl
    · rfl

/-- R3: a write to an address other than Link Control leaves the power state. -/
theorem portWrite_power {address : PortAddress} (ha : address ≠ 1) (value : Byte) (s : State) :
    (portWrite address value s).power.state = s.power.state := by
  unfold portWrite
  rw [if_neg ha]
  split
  · rfl
  · split
    · exact writeLinkData_power value s
    · split_ifs <;> rfl

theorem powerMoves_readLinkData : PowerMoves .linkDataRead s (readLinkData s) := by
  unfold readLinkData
  split
  · exact .inl rfl
  · exact powerMoves_closeStep rfl (.inl rfl)

theorem powerMoves_resync {value : Byte} (h0 : value.getLsbD 0 = true) (h1 : value.getLsbD 1 = false) :
    PowerMoves (.resync value) s (portWrite 1 value s) := by
  cases hr : s.pins.rstLow with
  | true =>
    rw [portWrite_resync_of_rstLow hr h1]
    exact .inl rfl
  | false =>
    rw [portWrite_resync hr h0 h1, resyncLink]
    split
    · exact .inl rfl
    · exact powerMoves_closeStep rfl (.inl rfl)

theorem powerMoves_fullReset {value : Byte} (h : value.getLsbD 1 = true) :
    PowerMoves (.fullReset value) s (portWrite 1 value s) := by
  rw [portWrite_fullReset h, fullResetPart]
  split
  · exact .inl rfl
  · exact .of_reset rfl rfl

/-! ## The taking of a byte (R7, R178) -/

theorem completeParcel_power (sum : Byte) (damaged : Bool) (s : State) :
    (completeParcel sum damaged s).power.state = s.power.state := by
  unfold completeParcel
  split
  · rfl
  · split
    · rw [goodParcel_eq]
      rfl
    · rfl

/-- R178: a byte taken leaves the power state, or as a Length byte abandons a pending sleep. -/
theorem handleByte_power (b : Byte) (s : State) : (handleByte b s).power.state = s.power.state ∨
    (s.power.state = .sleepPending ∧ (handleByte b s).power.state = .run) := by
  unfold handleByte
  split
  · unfold takeLength abandonSleep
    split
    · split
      next pending => exact .inr ⟨pending, rfl⟩
      next => exact .inl rfl
    · exact .inl rfl
  · unfold takeCollecting
    split
    · exact .inl (completeParcel_power ..)
    · exact .inl rfl
  · exact .inl rfl

theorem powerMoves_takingStep : PowerMoves .byteTaken s (takingStep s) := by
  unfold takingStep
  split
  · exact .inl rfl
  next b _ =>
    refine PowerMoves.ite fun _ => powerMoves_closeStep rfl ((handleByte_power b (emptyHolding s)).imp_right ?_)
    rintro ⟨pending, run⟩
    have pending : s.power.state = .sleepPending := pending
    exact ⟨run, by rw [pending]; rfl⟩

/-! ## The tick (R164, R176) -/

/-- R167: of the five parts of a tick the alarm alone can change the power state, from Doze to Run. -/
theorem powerMoves_tickStep (hg : gapPositive s.link.assembler) (hc : tickCommand c = true) : PowerMoves c s (tickStep s) := by
  have sleeps : powerChange c .sleepPending .sleep = true := by simp [powerChange, hc]
  have wakes : powerChange c .doze .run = true := by simp [powerChange, hc]
  unfold tickStep
  refine PowerMoves.ite fun _ => ?_
  rw [tick_served hg]
  refine powerMoves_closeStep sleeps ?_
  rw [watchServed_power]
  rcases alarmServed_power s (gapServed s (ticked s)) with kept | ⟨doze, run⟩
  · rw [gapServed_power] at kept
    exact .inl kept
  · exact .inr ⟨run, by rw [doze, wakes]⟩

/-! ## The posting (R33, R175, R177) -/

/-- R33, R34: an engine that holds a REPLY stands in no sleep, and a REPLY whose posting leaves Run is held in Run. -/
theorem powerMoves_postingStep (h : LinkGood s) : PowerMoves .posting s (postingStep s) := by
  cases he : s.requests.engine with
  | replying a =>
    by_cases hroom : s.link.ring.length + a.bytes.length ≤ 192
    · obtain ⟨hmin, -, -, leaves⟩ := h.answer a he
      have awake := (h.queue.awake (by simp [he])).1
      rw [postingStep_of_room he hroom]
      cases hf : a.effect with
      | nothing => exact .inl (closeStep_power_of_awake (s := postBytes a s) awake)
      | warmReset => exact .inl (closeStep_power_of_awake (s := warmReset (postBytes a s)) awake)
      | enterDoze =>
        have dozing := closeStep_power_of_awake (s := lowered .doze (postBytes a s)) (by simp [lowered])
        rw [postEffect, enterLowPower_eq]
        exact .inr (by rw [dozing, leaves (.inl hf)]; rfl)
      | enterSleep =>
        -- the bytes just posted stand in the ring, so that the end of this very step does not enter Sleep
        have posted : s.link.ring ++ a.bytes ≠ [] :=
          List.append_ne_nil_of_right_ne_nil _ fun e => by simp [e] at hmin
        have settled : Settled (postEffect .enterSleep (postBytes a s)) :=
          ⟨rejectionDue_of_busy (by simp [postEffect]), sleepReady_of_ring posted⟩
        rw [closeStep_of_settled _ settled]
        exact .inr (by rw [leaves (.inr hf)]; rfl)
    · rw [postingStep, postable_of_replying he, if_neg hroom]
      exact .inl rfl
  | _ =>
    rw [postingStep, postable_of_not_replying (by simp [he])]
    exact .inl rfl

/-! ## The boundaries -/

theorem boundary_power (h : Settled s) : (boundary s).power.state = s.power.state := by
  rw [boundary_eq, closeStep_of_settled _ (settled_of_portView h (portView_boundarySteps s))]
  exact congrArg (fun t => t.power.state) (beyondFrame_boundarySteps s)

/-! ## The requests (R37, R176) -/

theorem submitSound_power (head : Fin 32) (due : Word) (urgent : Bool) (s : State) :
    (submitSound head due urgent s).leaves fun t => t.power = s.power := by
  refine leaves_checked fun _ => leaves_checked fun _ => ?_
  split
  · trivial
  · exact rfl

/-- R172, R176: no request but WAKE changes the power state in its execution step. -/
theorem requestBody_power {kind : Byte} (hc : requestCode c = some kind) (hw : c ≠ .wake) (payload : List Byte) (s : State) :
    (requestBody c payload s).leaves fun t => t.power = s.power := by
  cases c with
  | wake => exact absurd rfl hw
  | configureScan =>
    refine leaves_checked fun _ => ?_
    split
    next config _ =>
      obtain ⟨armed, e⟩ := configureScan_eq s config
      rw [e]
      exact rfl
    next => trivial
  | setKey =>
    refine leaves_checked fun _ => ?_
    split
    · exact congrArg (fun u => u.power) (beyondKeys_setKey s _ _)
    · trivial
  | setLinkWatch =>
    refine leaves_checked fun _ => ?_
    split
    next action _ _ =>
      obtain ⟨count, e⟩ := setWatch_eq s (byteAt payload 0) action
      rw [e]
      exact rfl
    next => trivial
  | setAlarm =>
    refine leaves_checked fun _ => ?_
    split
    · trivial
    · exact leaves_checked fun _ => rfl
  | submitChain =>
    refine leaves_checked fun _ => ?_
    split
    · exact submitSound_power ..
    · trivial
  | identify | echo | getStatus | clearCounters | restart | chainStatus | flushKeys | getKeyStates | readTime =>
    exact leaves_checked fun _ => rfl
  | clearCanvas | setBackdrop | setContrast | setBlink | takeKeys => exact leaves_checked fun _ => leaves_passed fun _ => rfl
  | configurePanel | stage | enterSleep => exact leaves_checked fun _ => leaves_checked fun _ => leaves_checked fun _ => rfl
  | enterDoze => exact leaves_checked fun _ => leaves_ite (fun _ => rfl) fun _ => leaves_checked fun _ => rfl
  | readCanvas | readAttributes | writeAtCursor | getView | selectViews | setDisplayMode | readDescriptor =>
    refine leaves_checked fun _ => ?_
    split
    · exact rfl
    · trivial
  | writeCanvas | writeAttributes | setView =>
    refine leaves_checked fun _ => ?_
    split
    · exact leaves_passed fun _ => rfl
    · trivial
  | loadDescriptor | freeDescriptor =>
    refine leaves_checked fun _ => ?_
    split
    · exact leaves_checked fun _ => rfl
    · trivial
  | setCursor | cancelChain =>
    refine leaves_checked fun _ => leaves_checked fun _ => ?_
    split
    · exact rfl
    · trivial
  | _ => cases hc

/-- R30, R172: an execution step changes the power state where its request is WAKE in Doze. -/
theorem powerMoves_request {kind : Byte} (hc : requestCode c = some kind) : PowerMoves c s (effect c s) := by
  rw [effect_of_requestCode hc]
  rcases execute_cases (fun k => k == kind) (requestBody c) s with e | ⟨slot, -, -, e⟩
  · exact .inl (congrArg (fun t => t.power.state) e)
  · rw [executeKind, e]
    have keeps := requestBody_keeps hc slot.payload (beginExecution s)
    have leaves := fun hw => requestBody_power hc hw slot.payload (beginExecution s)
    cases hv : requestBody c slot.payload (beginExecution s) with
    | fail code result => exact .inl rfl
    | done after result effect =>
      rw [hv] at keeps leaves
      obtain ⟨keeps, -, -⟩ := keeps
      by_cases hw : c = .wake
      · subst hw
        refine keeps.power.imp_right fun ⟨doze, run⟩ => ?_
        show powerChange .wake (beginExecution s).power.state after.power.state = true
        rw [doze, run]
        rfl
      · exact .inl (congrArg Power.state (leaves hw))

/-! ## Every command -/

/-- R172: from a state that meets the invariant of the link, every command makes a transition of the table or none. -/
theorem powerMoves_effect (hw : c.wellFormed = true) (h : LinkGood s) : PowerMoves c s (effect c s) := by
  have ticks (hc : tickCommand c = true) : PowerMoves c s (tickStep s) := powerMoves_tickStep (gapPositive_of_good h.assembler) hc
  have passes (longGhosts : KeySet) : (scanPassStep longGhosts s).power.state = s.power.state :=
    congrArg (fun t => t.power.state) (beyondPass_scanPassStep s longGhosts)
  cases c with
  | linkDataWrite value => exact .inl (portWrite_power (by decide) value s)
  | linkDataRead => exact powerMoves_readLinkData
  | linkStatusRead => exact .inl rfl
  | resync value =>
    obtain ⟨h0, h1⟩ : value.getLsbD 0 = true ∧ value.getLsbD 1 = false := by simpa [Instr.wellFormed] using hw
    exact powerMoves_resync h0 h1
  | fullReset value => exact powerMoves_fullReset hw
  | noticeAcknowledge address value =>
    have ha : address = 2 ∨ address = 3 := by simpa [Instr.wellFormed] using hw
    exact .inl (portWrite_power (by rcases ha with rfl | rfl <;> decide) value s)
  | noticeMask address value =>
    have ha : address = 4 ∨ address = 5 := by simpa [Instr.wellFormed] using hw
    exact .inl (portWrite_power (by rcases ha with rfl | rfl <;> decide) value s)
  | ignoredPortWrite address value =>
    have ignored := portWrite_ignored (s := s) (by simpa [Instr.wellFormed] using hw) value
    exact .inl (congrArg (fun t => t.power.state) ignored)
  | byteTaken => exact powerMoves_takingStep
  | gapTimeout => exact PowerMoves.ite fun _ => ticks rfl
  | huntingEnd => exact PowerMoves.ite fun _ => ticks rfl
  | posting => exact powerMoves_postingStep h
  | sleepEntry =>
    show PowerMoves _ s (enterSleepIfReady s)
    rw [enterSleepIfReady_eq, sleptIfQuiet_eq_self s h.settled.2]
    exact .inl rfl
  | unknownKindRequest =>
    exact .inl (execute_leaves (P := fun t => t.power.state = s.power.state) (fun _ _ => id) unknownKind
      (body := unknownKindBody) (fun _ _ _ => trivial) rfl)
  | frameBoundary waited =>
    refine PowerMoves.ite fun _ => .inl ?_
    have waiting : Settled (countWait waited s) := by
      rw [countWait_eq]
      exact settled_of_portView h.settled rfl
    rw [boundary_power waiting, countWait_eq]
  | resumingBoundary => exact PowerMoves.ite fun _ => .inl (boundary_power h.settled)
  | rowScanOut =>
    show PowerMoves _ s (match dueRow s with
      | some r => scanRow r s
      | none => s)
    cases dueRow s <;> exact .inl rfl
  | tick => exact ticks rfl
  | scanPass longGhosts => exact .inl (passes longGhosts)
  | repeatEvent longGhosts =>
    show PowerMoves _ s (if repeatRunsOut longGhosts s then scanPassStep longGhosts s else s)
    exact PowerMoves.ite fun _ => .inl (passes longGhosts)
  | alarmExpiry => exact PowerMoves.ite fun _ => ticks rfl
  | linkWatchExpiry => exact PowerMoves.ite fun _ => ticks rfl
  | wakeStep =>
    refine PowerMoves.ite fun due => .inr ?_
    have run := returnToRun_power (resumeEngine s)
    rw [closeStep_power_of_awake (by simp [run]), run]
    obtain ⟨doze | sleep, -⟩ := wakeStepDue_iff.1 due
    · rw [doze]
      rfl
    · rw [sleep]
      rfl
  | endOfStarting =>
    refine PowerMoves.ite fun ends => .inr ?_
    have starting : s.power.state = .starting := by
      simp only [startingEnds, Bool.and_eq_true, beq_iff_eq] at ends
      exact ends.1
    rw [returnToRun_power, starting]
    rfl
  | powerOnReset => exact .of_reset rfl rfl
  | rstPinReset low =>
    show PowerMoves _ s (rstChanges low s)
    unfold rstChanges
    split
    next driven => exact .of_reset (Bool.and_eq_true_iff.1 driven).1 rfl
    next => exact .inl rfl
  | watchedLineChange key closed =>
    obtain ⟨contacts, armed, due, e⟩ := contactChanges_eq key closed s
    exact .inl (congrArg (fun t => t.power.state) e)
  | _ => exact powerMoves_request rfl

end

end Sys2Proof.Machine

namespace Sys2Proof.Proofs

open Sys2Proof.Machine

/-- Settles O57: every command leaves the power state or makes a transition of the table. -/
theorem powerStateChangesOnlyByItsTransitions : Obligations.PowerStateChangesOnlyByItsTransitions := by
  intro c s t hw h hstep hne
  rw [exec_eq_effect] at hstep
  cases hstep
  exact (powerMoves_effect hw h).resolve_left hne

end Sys2Proof.Proofs
end
